-- ==== Sys2Proof/Word.lean ====
section
/-! DEFINITION. The words of the machine: bytes and 16-bit bus addresses (spec 00_scope.md R6, R7). -/

namespace Sys2Proof

/-- A byte: the width of A, X, Y, SP, P and of every bus datum (R5, R6). -/
abbrev Byte := BitVec 8

/-- A 16-bit bus address, the width of PC (R5, R70). -/
abbrev Addr := BitVec 16

end Sys2Proof
end

