-- ==== Sys2Proof/Syntax.lean ====
section
/-! DEFINITION. Syntax: the rows of spec/opcode_table.json, in the order of the opcode byte (spec 30_encoding.md R114).
Every row is a constructor, except that the undocumented rows with the same mnemonic and the same mode (KIL, and the NOPs
of one mode, R118, R119) share one constructor that carries the opcode byte: Lean compiles no inductive of more than 244
constructors, and the table has 256 rows (log 17). Operands are what R112 says they mean: a byte, a 16-bit address, or for
mode rel a signed offset. The comment at each constructor is its opcode byte or bytes and its mode. -/

namespace Sys2Proof

/-- The instructions. A name is the mnemonic and the mode. The field `op` is the opcode byte of a KIL or of an
undocumented NOP. `brk` carries its padding byte, which the core never reads (R124, log 8). -/
inductive Instr where
  | brk (pad : Byte)                 -- $00 imp
  | oraIndX (d : Byte)               -- $01 izx
  | kil (op : Byte)                  -- $02 $12 $22 $32 $42 $52 $62 $72 $92 $B2 $D2 $F2 imp
  | sloIndX (d : Byte)               -- $03 izx
  | nopZp (op : Byte) (d : Byte)     -- $04 $44 $64 zp
  | oraZp (d : Byte)                 -- $05 zp
  | aslZp (d : Byte)                 -- $06 zp
  | sloZp (d : Byte)                 -- $07 zp
  | php                              -- $08 imp
  | oraImm (d : Byte)                -- $09 imm
  | aslAcc                           -- $0A acc
  | ancImm0B (d : Byte)              -- $0B imm
  | nopAbs (a : Addr)                -- $0C abs
  | oraAbs (a : Addr)                -- $0D abs
  | aslAbs (a : Addr)                -- $0E abs
  | sloAbs (a : Addr)                -- $0F abs
  | bpl (offset : Int)               -- $10 rel
  | oraIndY (d : Byte)               -- $11 izy
  | sloIndY (d : Byte)               -- $13 izy
  | nopZpX (op : Byte) (d : Byte)    -- $14 $34 $54 $74 $D4 $F4 zpx
  | oraZpX (d : Byte)                -- $15 zpx
  | aslZpX (d : Byte)                -- $16 zpx
  | sloZpX (d : Byte)                -- $17 zpx
  | clc                              -- $18 imp
  | oraAbsY (a : Addr)               -- $19 aby
  | nopImp (op : Byte)               -- $1A $3A $5A $7A $DA $FA imp
  | sloAbsY (a : Addr)               -- $1B aby
  | nopAbsX (op : Byte) (a : Addr)   -- $1C $3C $5C $7C $DC $FC abx
  | oraAbsX (a : Addr)               -- $1D abx
  | aslAbsX (a : Addr)               -- $1E abx
  | sloAbsX (a : Addr)               -- $1F abx
  | jsrAbs (a : Addr)                -- $20 abs
  | andIndX (d : Byte)               -- $21 izx
  | rlaIndX (d : Byte)               -- $23 izx
  | bitZp (d : Byte)                 -- $24 zp
  | andZp (d : Byte)                 -- $25 zp
  | rolZp (d : Byte)                 -- $26 zp
  | rlaZp (d : Byte)                 -- $27 zp
  | plp                              -- $28 imp
  | andImm (d : Byte)                -- $29 imm
  | rolAcc                           -- $2A acc
  | ancImm2B (d : Byte)              -- $2B imm
  | bitAbs (a : Addr)                -- $2C abs
  | andAbs (a : Addr)                -- $2D abs
  | rolAbs (a : Addr)                -- $2E abs
  | rlaAbs (a : Addr)                -- $2F abs
  | bmi (offset : Int)               -- $30 rel
  | andIndY (d : Byte)               -- $31 izy
  | rlaIndY (d : Byte)               -- $33 izy
  | andZpX (d : Byte)                -- $35 zpx
  | rolZpX (d : Byte)                -- $36 zpx
  | rlaZpX (d : Byte)                -- $37 zpx
  | sec                              -- $38 imp
  | andAbsY (a : Addr)               -- $39 aby
  | rlaAbsY (a : Addr)               -- $3B aby
  | andAbsX (a : Addr)               -- $3D abx
  | rolAbsX (a : Addr)               -- $3E abx
  | rlaAbsX (a : Addr)               -- $3F abx
  | rti                              -- $40 imp
  | eorIndX (d : Byte)               -- $41 izx
  | sreIndX (d : Byte)               -- $43 izx
  | eorZp (d : Byte)                 -- $45 zp
  | lsrZp (d : Byte)                 -- $46 zp
  | sreZp (d : Byte)                 -- $47 zp
  | pha                              -- $48 imp
  | eorImm (d : Byte)                -- $49 imm
  | lsrAcc                           -- $4A acc
  | alrImm (d : Byte)                -- $4B imm
  | jmpAbs (a : Addr)                -- $4C abs
  | eorAbs (a : Addr)                -- $4D abs
  | lsrAbs (a : Addr)                -- $4E abs
  | sreAbs (a : Addr)                -- $4F abs
  | bvc (offset : Int)               -- $50 rel
  | eorIndY (d : Byte)               -- $51 izy
  | sreIndY (d : Byte)               -- $53 izy
  | eorZpX (d : Byte)                -- $55 zpx
  | lsrZpX (d : Byte)                -- $56 zpx
  | sreZpX (d : Byte)                -- $57 zpx
  | cli                              -- $58 imp
  | eorAbsY (a : Addr)               -- $59 aby
  | sreAbsY (a : Addr)               -- $5B aby
  | eorAbsX (a : Addr)               -- $5D abx
  | lsrAbsX (a : Addr)               -- $5E abx
  | sreAbsX (a : Addr)               -- $5F abx
  | rts                              -- $60 imp
  | adcIndX (d : Byte)               -- $61 izx
  | rraIndX (d : Byte)               -- $63 izx
  | adcZp (d : Byte)                 -- $65 zp
  | rorZp (d : Byte)                 -- $66 zp
  | rraZp (d : Byte)                 -- $67 zp
  | pla                              -- $68 imp
  | adcImm (d : Byte)                -- $69 imm
  | rorAcc                           -- $6A acc
  | arrImm (d : Byte)                -- $6B imm
  | jmpInd (a : Addr)                -- $6C ind
  | adcAbs (a : Addr)                -- $6D abs
  | rorAbs (a : Addr)                -- $6E abs
  | rraAbs (a : Addr)                -- $6F abs
  | bvs (offset : Int)               -- $70 rel
  | adcIndY (d : Byte)               -- $71 izy
  | rraIndY (d : Byte)               -- $73 izy
  | adcZpX (d : Byte)                -- $75 zpx
  | rorZpX (d : Byte)                -- $76 zpx
  | rraZpX (d : Byte)                -- $77 zpx
  | sei                              -- $78 imp
  | adcAbsY (a : Addr)               -- $79 aby
  | rraAbsY (a : Addr)               -- $7B aby
  | adcAbsX (a : Addr)               -- $7D abx
  | rorAbsX (a : Addr)               -- $7E abx
  | rraAbsX (a : Addr)               -- $7F abx
  | nopImm (op : Byte) (d : Byte)    -- $80 $82 $89 $C2 $E2 imm
  | staIndX (d : Byte)               -- $81 izx
  | saxIndX (d : Byte)               -- $83 izx
  | styZp (d : Byte)                 -- $84 zp
  | staZp (d : Byte)                 -- $85 zp
  | stxZp (d : Byte)                 -- $86 zp
  | saxZp (d : Byte)                 -- $87 zp
  | dey                              -- $88 imp
  | txa                              -- $8A imp
  | xaaImm (d : Byte)                -- $8B imm
  | styAbs (a : Addr)                -- $8C abs
  | staAbs (a : Addr)                -- $8D abs
  | stxAbs (a : Addr)                -- $8E abs
  | saxAbs (a : Addr)                -- $8F abs
  | bcc (offset : Int)               -- $90 rel
  | staIndY (d : Byte)               -- $91 izy
  | ahxIndY (d : Byte)               -- $93 izy
  | styZpX (d : Byte)                -- $94 zpx
  | staZpX (d : Byte)                -- $95 zpx
  | stxZpY (d : Byte)                -- $96 zpy
  | saxZpY (d : Byte)                -- $97 zpy
  | tya                              -- $98 imp
  | staAbsY (a : Addr)               -- $99 aby
  | txs                              -- $9A imp
  | tasAbsY (a : Addr)               -- $9B aby
  | shyAbsX (a : Addr)               -- $9C abx
  | staAbsX (a : Addr)               -- $9D abx
  | shxAbsY (a : Addr)               -- $9E aby
  | ahxAbsY (a : Addr)               -- $9F aby
  | ldyImm (d : Byte)                -- $A0 imm
  | ldaIndX (d : Byte)               -- $A1 izx
  | ldxImm (d : Byte)                -- $A2 imm
  | laxIndX (d : Byte)               -- $A3 izx
  | ldyZp (d : Byte)                 -- $A4 zp
  | ldaZp (d : Byte)                 -- $A5 zp
  | ldxZp (d : Byte)                 -- $A6 zp
  | laxZp (d : Byte)                 -- $A7 zp
  | tay                              -- $A8 imp
  | ldaImm (d : Byte)                -- $A9 imm
  | tax                              -- $AA imp
  | laxImm (d : Byte)                -- $AB imm
  | ldyAbs (a : Addr)                -- $AC abs
  | ldaAbs (a : Addr)                -- $AD abs
  | ldxAbs (a : Addr)                -- $AE abs
  | laxAbs (a : Addr)                -- $AF abs
  | bcs (offset : Int)               -- $B0 rel
  | ldaIndY (d : Byte)               -- $B1 izy
  | laxIndY (d : Byte)               -- $B3 izy
  | ldyZpX (d : Byte)                -- $B4 zpx
  | ldaZpX (d : Byte)                -- $B5 zpx
  | ldxZpY (d : Byte)                -- $B6 zpy
  | laxZpY (d : Byte)                -- $B7 zpy
  | clv                              -- $B8 imp
  | ldaAbsY (a : Addr)               -- $B9 aby
  | tsx                              -- $BA imp
  | lasAbsY (a : Addr)               -- $BB aby
  | ldyAbsX (a : Addr)               -- $BC abx
  | ldaAbsX (a : Addr)               -- $BD abx
  | ldxAbsY (a : Addr)               -- $BE aby
  | laxAbsY (a : Addr)               -- $BF aby
  | cpyImm (d : Byte)                -- $C0 imm
  | cmpIndX (d : Byte)               -- $C1 izx
  | dcpIndX (d : Byte)               -- $C3 izx
  | cpyZp (d : Byte)                 -- $C4 zp
  | cmpZp (d : Byte)                 -- $C5 zp
  | decZp (d : Byte)                 -- $C6 zp
  | dcpZp (d : Byte)                 -- $C7 zp
  | iny                              -- $C8 imp
  | cmpImm (d : Byte)                -- $C9 imm
  | dex                              -- $CA imp
  | axsImm (d : Byte)                -- $CB imm
  | cpyAbs (a : Addr)                -- $CC abs
  | cmpAbs (a : Addr)                -- $CD abs
  | decAbs (a : Addr)                -- $CE abs
  | dcpAbs (a : Addr)                -- $CF abs
  | bne (offset : Int)               -- $D0 rel
  | cmpIndY (d : Byte)               -- $D1 izy
  | dcpIndY (d : Byte)               -- $D3 izy
  | cmpZpX (d : Byte)                -- $D5 zpx
  | decZpX (d : Byte)                -- $D6 zpx
  | dcpZpX (d : Byte)                -- $D7 zpx
  | cld                              -- $D8 imp
  | cmpAbsY (a : Addr)               -- $D9 aby
  | dcpAbsY (a : Addr)               -- $DB aby
  | cmpAbsX (a : Addr)               -- $DD abx
  | decAbsX (a : Addr)               -- $DE abx
  | dcpAbsX (a : Addr)               -- $DF abx
  | cpxImm (d : Byte)                -- $E0 imm
  | sbcIndX (d : Byte)               -- $E1 izx
  | iscIndX (d : Byte)               -- $E3 izx
  | cpxZp (d : Byte)                 -- $E4 zp
  | sbcZp (d : Byte)                 -- $E5 zp
  | incZp (d : Byte)                 -- $E6 zp
  | iscZp (d : Byte)                 -- $E7 zp
  | inx                              -- $E8 imp
  | sbcImm (d : Byte)                -- $E9 imm
  | nop                              -- $EA imp
  | sbcImmEB (d : Byte)              -- $EB imm
  | cpxAbs (a : Addr)                -- $EC abs
  | sbcAbs (a : Addr)                -- $ED abs
  | incAbs (a : Addr)                -- $EE abs
  | iscAbs (a : Addr)                -- $EF abs
  | beq (offset : Int)               -- $F0 rel
  | sbcIndY (d : Byte)               -- $F1 izy
  | iscIndY (d : Byte)               -- $F3 izy
  | sbcZpX (d : Byte)                -- $F5 zpx
  | incZpX (d : Byte)                -- $F6 zpx
  | iscZpX (d : Byte)                -- $F7 zpx
  | sed                              -- $F8 imp
  | sbcAbsY (a : Addr)               -- $F9 aby
  | iscAbsY (a : Addr)               -- $FB aby
  | sbcAbsX (a : Addr)               -- $FD abx
  | incAbsX (a : Addr)               -- $FE abx
  | iscAbsX (a : Addr)               -- $FF abx
  deriving DecidableEq, Repr

end Sys2Proof
end

