-- ==== Sys2Proof/WellFormed.lean ====
section
/-! DEFINITION. Which instructions have an encoding. Byte and address operands fit their fields by their types. Two kinds
of field have a range of their own: the branch offset (spec 30_encoding.md R112: "-128 to +127"; R122) and the opcode byte
of the instructions that several rows of the table share (R116). -/

namespace Sys2Proof

/-- A branch offset that one byte can hold as a signed number (R112, R260). -/
def offsetFits (offset : Int) : Bool := decide (-128 ≤ offset) && decide (offset ≤ 127)

/-- The twelve lock-up bytes (R116, R118). -/
def kilBytes : List Byte := [0x02, 0x12, 0x22, 0x32, 0x42, 0x52, 0x62, 0x72, 0x92, 0xB2, 0xD2, 0xF2]

/-- The undocumented NOP bytes of each mode that has several (R116, R339). -/
def nopZpBytes : List Byte := [0x04, 0x44, 0x64]
def nopZpXBytes : List Byte := [0x14, 0x34, 0x54, 0x74, 0xD4, 0xF4]
def nopImpBytes : List Byte := [0x1A, 0x3A, 0x5A, 0x7A, 0xDA, 0xFA]
def nopAbsXBytes : List Byte := [0x1C, 0x3C, 0x5C, 0x7C, 0xDC, 0xFC]
def nopImmBytes : List Byte := [0x80, 0x82, 0x89, 0xC2, 0xE2]

/-- The check on an instruction: a branch's offset fits its byte; an opcode byte is one of its row's; every other operand
fits by its type. -/
def Instr.wellFormed : Instr → Bool
  | .bpl offset | .bmi offset | .bvc offset | .bvs offset | .bcc offset | .bcs offset | .bne offset
  | .beq offset => offsetFits offset
  | .kil op => kilBytes.contains op
  | .nopZp op _ => nopZpBytes.contains op
  | .nopZpX op _ => nopZpXBytes.contains op
  | .nopImp op => nopImpBytes.contains op
  | .nopAbsX op _ => nopAbsXBytes.contains op
  | .nopImm op _ => nopImmBytes.contains op
  | .brk _ | .oraIndX _ | .sloIndX _ | .oraZp _ | .aslZp _ | .sloZp _ | .php | .oraImm _ | .aslAcc
  | .ancImm0B _ | .nopAbs _ | .oraAbs _ | .aslAbs _ | .sloAbs _ | .oraIndY _ | .sloIndY _ | .oraZpX _
  | .aslZpX _ | .sloZpX _ | .clc | .oraAbsY _ | .sloAbsY _ | .oraAbsX _ | .aslAbsX _ | .sloAbsX _ | .jsrAbs _
  | .andIndX _ | .rlaIndX _ | .bitZp _ | .andZp _ | .rolZp _ | .rlaZp _ | .plp | .andImm _ | .rolAcc
  | .ancImm2B _ | .bitAbs _ | .andAbs _ | .rolAbs _ | .rlaAbs _ | .andIndY _ | .rlaIndY _ | .andZpX _
  | .rolZpX _ | .rlaZpX _ | .sec | .andAbsY _ | .rlaAbsY _ | .andAbsX _ | .rolAbsX _ | .rlaAbsX _ | .rti
  | .eorIndX _ | .sreIndX _ | .eorZp _ | .lsrZp _ | .sreZp _ | .pha | .eorImm _ | .lsrAcc | .alrImm _
  | .jmpAbs _ | .eorAbs _ | .lsrAbs _ | .sreAbs _ | .eorIndY _ | .sreIndY _ | .eorZpX _ | .lsrZpX _ | .sreZpX _
  | .cli | .eorAbsY _ | .sreAbsY _ | .eorAbsX _ | .lsrAbsX _ | .sreAbsX _ | .rts | .adcIndX _ | .rraIndX _
  | .adcZp _ | .rorZp _ | .rraZp _ | .pla | .adcImm _ | .rorAcc | .arrImm _ | .jmpInd _ | .adcAbs _ | .rorAbs _
  | .rraAbs _ | .adcIndY _ | .rraIndY _ | .adcZpX _ | .rorZpX _ | .rraZpX _ | .sei | .adcAbsY _ | .rraAbsY _
  | .adcAbsX _ | .rorAbsX _ | .rraAbsX _ | .staIndX _ | .saxIndX _ | .styZp _ | .staZp _ | .stxZp _ | .saxZp _
  | .dey | .txa | .xaaImm _ | .styAbs _ | .staAbs _ | .stxAbs _ | .saxAbs _ | .staIndY _ | .ahxIndY _
  | .styZpX _ | .staZpX _ | .stxZpY _ | .saxZpY _ | .tya | .staAbsY _ | .txs | .tasAbsY _ | .shyAbsX _
  | .staAbsX _ | .shxAbsY _ | .ahxAbsY _ | .ldyImm _ | .ldaIndX _ | .ldxImm _ | .laxIndX _ | .ldyZp _
  | .ldaZp _ | .ldxZp _ | .laxZp _ | .tay | .ldaImm _ | .tax | .laxImm _ | .ldyAbs _ | .ldaAbs _ | .ldxAbs _
  | .laxAbs _ | .ldaIndY _ | .laxIndY _ | .ldyZpX _ | .ldaZpX _ | .ldxZpY _ | .laxZpY _ | .clv | .ldaAbsY _
  | .tsx | .lasAbsY _ | .ldyAbsX _ | .ldaAbsX _ | .ldxAbsY _ | .laxAbsY _ | .cpyImm _ | .cmpIndX _ | .dcpIndX _
  | .cpyZp _ | .cmpZp _ | .decZp _ | .dcpZp _ | .iny | .cmpImm _ | .dex | .axsImm _ | .cpyAbs _ | .cmpAbs _
  | .decAbs _ | .dcpAbs _ | .cmpIndY _ | .dcpIndY _ | .cmpZpX _ | .decZpX _ | .dcpZpX _ | .cld | .cmpAbsY _
  | .dcpAbsY _ | .cmpAbsX _ | .decAbsX _ | .dcpAbsX _ | .cpxImm _ | .sbcIndX _ | .iscIndX _ | .cpxZp _
  | .sbcZp _ | .incZp _ | .iscZp _ | .inx | .sbcImm _ | .nop | .sbcImmEB _ | .cpxAbs _ | .sbcAbs _ | .incAbs _
  | .iscAbs _ | .sbcIndY _ | .iscIndY _ | .sbcZpX _ | .incZpX _ | .iscZpX _ | .sed | .sbcAbsY _ | .iscAbsY _
  | .sbcAbsX _ | .incAbsX _ | .iscAbsX _ => true

end Sys2Proof
end

