-- ==== Sys2Proof/Decode.lean ====
section
/-! DEFINITION. The opcode table, the decoder and after it the encoder (spec 30_encoding.md R110 to R124, with
spec/opcode_table.json). Decoding depends on the bytes alone (R110); every opcode byte has an entry, so the only
rejections are of byte strings that end too early (R117). -/

namespace Sys2Proof

/-! ## Byte order and fields (R86, R111, R112) -/

/-- `a[7:0]`. -/
def loByte (a : Addr) : Byte := a.setWidth 8

/-- `a[15:8]`, the page of `a` (00_scope.md R7). -/
def hiByte (a : Addr) : Byte := (a >>> 8).setWidth 8

/-- The word of a high and a low byte (R6). -/
def mkAddr (h l : Byte) : Addr := h ++ l

/-- `zext_16` (R7). -/
def zext16 (b : Byte) : Addr := b.setWidth 16

/-- The signed number a byte stands for; the rel offset is the only sign-extended field (R112). -/
def offsetOfByte (b : Byte) : Int := b.toInt

/-- The byte that holds a branch offset. -/
def byteOfOffset (offset : Int) : Byte := BitVec.ofInt 8 offset

/-- The 16-bit word of a signed offset: `sext_16` of its byte (00_scope.md R7). -/
def sext16 (offset : Int) : Addr := BitVec.ofInt 16 offset

/-! ## Table entries (R113) -/

/-- The thirteen addressing modes (00_scope.md R19, 40_step_and_addressing.md R151 to R163). -/
inductive Mode where
  | imp | acc | imm | zp | zpx | zpy | abs | abx | aby | ind | izx | izy | rel
  deriving DecidableEq, Repr

/-- The 75 mnemonics (R115, R116). -/
inductive Mnemonic where
  | adc | ahx | alr | anc | and | arr | asl | axs | bcc | bcs | beq | bit | bmi | bne | bpl | brk | bvc | bvs
  | clc | cld | cli | clv | cmp | cpx | cpy | dcp | dec | dex | dey | eor | inc | inx | iny | isc | jmp | jsr
  | kil | las | lax | lda | ldx | ldy | lsr | nop | ora | pha | php | pla | plp | rla | rol | ror | rra | rti
  | rts | sax | sbc | sec | sed | sei | shx | shy | slo | sre | sta | stx | sty | tas | tax | tay | tsx | txa
  | txs | tya | xaa
  deriving DecidableEq, Repr

/-- An opcode table entry: mnemonic, mode, length in bytes, base cycles, and the handler's sensitivity flag (R113). -/
structure Entry where
  mnemonic : Mnemonic
  mode     : Mode
  length   : Nat
  base     : Nat
  xb       : Bool
  deriving DecidableEq, Repr

/-- The entry of the opcode byte an instruction stands for, row by row as R114 lists them. -/
def Instr.entry : Instr → Entry
  | .brk _ => ⟨.brk, .imp, 2, 7, false⟩
  | .oraIndX _ => ⟨.ora, .izx, 2, 6, true⟩
  | .kil _ => ⟨.kil, .imp, 1, 0, false⟩
  | .sloIndX _ => ⟨.slo, .izx, 2, 8, false⟩
  | .nopZp _ _ => ⟨.nop, .zp, 2, 3, true⟩
  | .oraZp _ => ⟨.ora, .zp, 2, 3, true⟩
  | .aslZp _ => ⟨.asl, .zp, 2, 5, false⟩
  | .sloZp _ => ⟨.slo, .zp, 2, 5, false⟩
  | .php => ⟨.php, .imp, 1, 3, false⟩
  | .oraImm _ => ⟨.ora, .imm, 2, 2, true⟩
  | .aslAcc => ⟨.asl, .acc, 1, 2, false⟩
  | .ancImm0B _ => ⟨.anc, .imm, 2, 2, false⟩
  | .nopAbs _ => ⟨.nop, .abs, 3, 4, true⟩
  | .oraAbs _ => ⟨.ora, .abs, 3, 4, true⟩
  | .aslAbs _ => ⟨.asl, .abs, 3, 6, false⟩
  | .sloAbs _ => ⟨.slo, .abs, 3, 6, false⟩
  | .bpl _ => ⟨.bpl, .rel, 2, 2, false⟩
  | .oraIndY _ => ⟨.ora, .izy, 2, 5, true⟩
  | .sloIndY _ => ⟨.slo, .izy, 2, 8, false⟩
  | .nopZpX _ _ => ⟨.nop, .zpx, 2, 4, true⟩
  | .oraZpX _ => ⟨.ora, .zpx, 2, 4, true⟩
  | .aslZpX _ => ⟨.asl, .zpx, 2, 6, false⟩
  | .sloZpX _ => ⟨.slo, .zpx, 2, 6, false⟩
  | .clc => ⟨.clc, .imp, 1, 2, false⟩
  | .oraAbsY _ => ⟨.ora, .aby, 3, 4, true⟩
  | .nopImp _ => ⟨.nop, .imp, 1, 2, true⟩
  | .sloAbsY _ => ⟨.slo, .aby, 3, 7, false⟩
  | .nopAbsX _ _ => ⟨.nop, .abx, 3, 4, true⟩
  | .oraAbsX _ => ⟨.ora, .abx, 3, 4, true⟩
  | .aslAbsX _ => ⟨.asl, .abx, 3, 7, false⟩
  | .sloAbsX _ => ⟨.slo, .abx, 3, 7, false⟩
  | .jsrAbs _ => ⟨.jsr, .abs, 3, 6, false⟩
  | .andIndX _ => ⟨.and, .izx, 2, 6, true⟩
  | .rlaIndX _ => ⟨.rla, .izx, 2, 8, false⟩
  | .bitZp _ => ⟨.bit, .zp, 2, 3, false⟩
  | .andZp _ => ⟨.and, .zp, 2, 3, true⟩
  | .rolZp _ => ⟨.rol, .zp, 2, 5, false⟩
  | .rlaZp _ => ⟨.rla, .zp, 2, 5, false⟩
  | .plp => ⟨.plp, .imp, 1, 4, false⟩
  | .andImm _ => ⟨.and, .imm, 2, 2, true⟩
  | .rolAcc => ⟨.rol, .acc, 1, 2, false⟩
  | .ancImm2B _ => ⟨.anc, .imm, 2, 2, false⟩
  | .bitAbs _ => ⟨.bit, .abs, 3, 4, false⟩
  | .andAbs _ => ⟨.and, .abs, 3, 4, true⟩
  | .rolAbs _ => ⟨.rol, .abs, 3, 6, false⟩
  | .rlaAbs _ => ⟨.rla, .abs, 3, 6, false⟩
  | .bmi _ => ⟨.bmi, .rel, 2, 2, false⟩
  | .andIndY _ => ⟨.and, .izy, 2, 5, true⟩
  | .rlaIndY _ => ⟨.rla, .izy, 2, 8, false⟩
  | .andZpX _ => ⟨.and, .zpx, 2, 4, true⟩
  | .rolZpX _ => ⟨.rol, .zpx, 2, 6, false⟩
  | .rlaZpX _ => ⟨.rla, .zpx, 2, 6, false⟩
  | .sec => ⟨.sec, .imp, 1, 2, false⟩
  | .andAbsY _ => ⟨.and, .aby, 3, 4, true⟩
  | .rlaAbsY _ => ⟨.rla, .aby, 3, 7, false⟩
  | .andAbsX _ => ⟨.and, .abx, 3, 4, true⟩
  | .rolAbsX _ => ⟨.rol, .abx, 3, 7, false⟩
  | .rlaAbsX _ => ⟨.rla, .abx, 3, 7, false⟩
  | .rti => ⟨.rti, .imp, 1, 6, false⟩
  | .eorIndX _ => ⟨.eor, .izx, 2, 6, true⟩
  | .sreIndX _ => ⟨.sre, .izx, 2, 8, false⟩
  | .eorZp _ => ⟨.eor, .zp, 2, 3, true⟩
  | .lsrZp _ => ⟨.lsr, .zp, 2, 5, false⟩
  | .sreZp _ => ⟨.sre, .zp, 2, 5, false⟩
  | .pha => ⟨.pha, .imp, 1, 3, false⟩
  | .eorImm _ => ⟨.eor, .imm, 2, 2, true⟩
  | .lsrAcc => ⟨.lsr, .acc, 1, 2, false⟩
  | .alrImm _ => ⟨.alr, .imm, 2, 2, false⟩
  | .jmpAbs _ => ⟨.jmp, .abs, 3, 3, false⟩
  | .eorAbs _ => ⟨.eor, .abs, 3, 4, true⟩
  | .lsrAbs _ => ⟨.lsr, .abs, 3, 6, false⟩
  | .sreAbs _ => ⟨.sre, .abs, 3, 6, false⟩
  | .bvc _ => ⟨.bvc, .rel, 2, 2, false⟩
  | .eorIndY _ => ⟨.eor, .izy, 2, 5, true⟩
  | .sreIndY _ => ⟨.sre, .izy, 2, 8, false⟩
  | .eorZpX _ => ⟨.eor, .zpx, 2, 4, true⟩
  | .lsrZpX _ => ⟨.lsr, .zpx, 2, 6, false⟩
  | .sreZpX _ => ⟨.sre, .zpx, 2, 6, false⟩
  | .cli => ⟨.cli, .imp, 1, 2, false⟩
  | .eorAbsY _ => ⟨.eor, .aby, 3, 4, true⟩
  | .sreAbsY _ => ⟨.sre, .aby, 3, 7, false⟩
  | .eorAbsX _ => ⟨.eor, .abx, 3, 4, true⟩
  | .lsrAbsX _ => ⟨.lsr, .abx, 3, 7, false⟩
  | .sreAbsX _ => ⟨.sre, .abx, 3, 7, false⟩
  | .rts => ⟨.rts, .imp, 1, 6, false⟩
  | .adcIndX _ => ⟨.adc, .izx, 2, 6, true⟩
  | .rraIndX _ => ⟨.rra, .izx, 2, 8, false⟩
  | .adcZp _ => ⟨.adc, .zp, 2, 3, true⟩
  | .rorZp _ => ⟨.ror, .zp, 2, 5, false⟩
  | .rraZp _ => ⟨.rra, .zp, 2, 5, false⟩
  | .pla => ⟨.pla, .imp, 1, 4, false⟩
  | .adcImm _ => ⟨.adc, .imm, 2, 2, true⟩
  | .rorAcc => ⟨.ror, .acc, 1, 2, false⟩
  | .arrImm _ => ⟨.arr, .imm, 2, 2, false⟩
  | .jmpInd _ => ⟨.jmp, .ind, 3, 5, false⟩
  | .adcAbs _ => ⟨.adc, .abs, 3, 4, true⟩
  | .rorAbs _ => ⟨.ror, .abs, 3, 6, false⟩
  | .rraAbs _ => ⟨.rra, .abs, 3, 6, false⟩
  | .bvs _ => ⟨.bvs, .rel, 2, 2, false⟩
  | .adcIndY _ => ⟨.adc, .izy, 2, 5, true⟩
  | .rraIndY _ => ⟨.rra, .izy, 2, 8, false⟩
  | .adcZpX _ => ⟨.adc, .zpx, 2, 4, true⟩
  | .rorZpX _ => ⟨.ror, .zpx, 2, 6, false⟩
  | .rraZpX _ => ⟨.rra, .zpx, 2, 6, false⟩
  | .sei => ⟨.sei, .imp, 1, 2, false⟩
  | .adcAbsY _ => ⟨.adc, .aby, 3, 4, true⟩
  | .rraAbsY _ => ⟨.rra, .aby, 3, 7, false⟩
  | .adcAbsX _ => ⟨.adc, .abx, 3, 4, true⟩
  | .rorAbsX _ => ⟨.ror, .abx, 3, 7, false⟩
  | .rraAbsX _ => ⟨.rra, .abx, 3, 7, false⟩
  | .nopImm _ _ => ⟨.nop, .imm, 2, 2, true⟩
  | .staIndX _ => ⟨.sta, .izx, 2, 6, false⟩
  | .saxIndX _ => ⟨.sax, .izx, 2, 6, false⟩
  | .styZp _ => ⟨.sty, .zp, 2, 3, false⟩
  | .staZp _ => ⟨.sta, .zp, 2, 3, false⟩
  | .stxZp _ => ⟨.stx, .zp, 2, 3, false⟩
  | .saxZp _ => ⟨.sax, .zp, 2, 3, false⟩
  | .dey => ⟨.dey, .imp, 1, 2, false⟩
  | .txa => ⟨.txa, .imp, 1, 2, false⟩
  | .xaaImm _ => ⟨.xaa, .imm, 2, 2, false⟩
  | .styAbs _ => ⟨.sty, .abs, 3, 4, false⟩
  | .staAbs _ => ⟨.sta, .abs, 3, 4, false⟩
  | .stxAbs _ => ⟨.stx, .abs, 3, 4, false⟩
  | .saxAbs _ => ⟨.sax, .abs, 3, 4, false⟩
  | .bcc _ => ⟨.bcc, .rel, 2, 2, false⟩
  | .staIndY _ => ⟨.sta, .izy, 2, 6, false⟩
  | .ahxIndY _ => ⟨.ahx, .izy, 2, 6, false⟩
  | .styZpX _ => ⟨.sty, .zpx, 2, 4, false⟩
  | .staZpX _ => ⟨.sta, .zpx, 2, 4, false⟩
  | .stxZpY _ => ⟨.stx, .zpy, 2, 4, false⟩
  | .saxZpY _ => ⟨.sax, .zpy, 2, 4, false⟩
  | .tya => ⟨.tya, .imp, 1, 2, false⟩
  | .staAbsY _ => ⟨.sta, .aby, 3, 5, false⟩
  | .txs => ⟨.txs, .imp, 1, 2, false⟩
  | .tasAbsY _ => ⟨.tas, .aby, 3, 5, false⟩
  | .shyAbsX _ => ⟨.shy, .abx, 3, 5, false⟩
  | .staAbsX _ => ⟨.sta, .abx, 3, 5, false⟩
  | .shxAbsY _ => ⟨.shx, .aby, 3, 5, false⟩
  | .ahxAbsY _ => ⟨.ahx, .aby, 3, 5, false⟩
  | .ldyImm _ => ⟨.ldy, .imm, 2, 2, true⟩
  | .ldaIndX _ => ⟨.lda, .izx, 2, 6, true⟩
  | .ldxImm _ => ⟨.ldx, .imm, 2, 2, true⟩
  | .laxIndX _ => ⟨.lax, .izx, 2, 6, true⟩
  | .ldyZp _ => ⟨.ldy, .zp, 2, 3, true⟩
  | .ldaZp _ => ⟨.lda, .zp, 2, 3, true⟩
  | .ldxZp _ => ⟨.ldx, .zp, 2, 3, true⟩
  | .laxZp _ => ⟨.lax, .zp, 2, 3, true⟩
  | .tay => ⟨.tay, .imp, 1, 2, false⟩
  | .ldaImm _ => ⟨.lda, .imm, 2, 2, true⟩
  | .tax => ⟨.tax, .imp, 1, 2, false⟩
  | .laxImm _ => ⟨.lax, .imm, 2, 2, true⟩
  | .ldyAbs _ => ⟨.ldy, .abs, 3, 4, true⟩
  | .ldaAbs _ => ⟨.lda, .abs, 3, 4, true⟩
  | .ldxAbs _ => ⟨.ldx, .abs, 3, 4, true⟩
  | .laxAbs _ => ⟨.lax, .abs, 3, 4, true⟩
  | .bcs _ => ⟨.bcs, .rel, 2, 2, false⟩
  | .ldaIndY _ => ⟨.lda, .izy, 2, 5, true⟩
  | .laxIndY _ => ⟨.lax, .izy, 2, 5, true⟩
  | .ldyZpX _ => ⟨.ldy, .zpx, 2, 4, true⟩
  | .ldaZpX _ => ⟨.lda, .zpx, 2, 4, true⟩
  | .ldxZpY _ => ⟨.ldx, .zpy, 2, 4, true⟩
  | .laxZpY _ => ⟨.lax, .zpy, 2, 4, true⟩
  | .clv => ⟨.clv, .imp, 1, 2, false⟩
  | .ldaAbsY _ => ⟨.lda, .aby, 3, 4, true⟩
  | .tsx => ⟨.tsx, .imp, 1, 2, false⟩
  | .lasAbsY _ => ⟨.las, .aby, 3, 4, true⟩
  | .ldyAbsX _ => ⟨.ldy, .abx, 3, 4, true⟩
  | .ldaAbsX _ => ⟨.lda, .abx, 3, 4, true⟩
  | .ldxAbsY _ => ⟨.ldx, .aby, 3, 4, true⟩
  | .laxAbsY _ => ⟨.lax, .aby, 3, 4, true⟩
  | .cpyImm _ => ⟨.cpy, .imm, 2, 2, false⟩
  | .cmpIndX _ => ⟨.cmp, .izx, 2, 6, true⟩
  | .dcpIndX _ => ⟨.dcp, .izx, 2, 8, false⟩
  | .cpyZp _ => ⟨.cpy, .zp, 2, 3, false⟩
  | .cmpZp _ => ⟨.cmp, .zp, 2, 3, true⟩
  | .decZp _ => ⟨.dec, .zp, 2, 5, false⟩
  | .dcpZp _ => ⟨.dcp, .zp, 2, 5, false⟩
  | .iny => ⟨.iny, .imp, 1, 2, false⟩
  | .cmpImm _ => ⟨.cmp, .imm, 2, 2, true⟩
  | .dex => ⟨.dex, .imp, 1, 2, false⟩
  | .axsImm _ => ⟨.axs, .imm, 2, 2, false⟩
  | .cpyAbs _ => ⟨.cpy, .abs, 3, 4, false⟩
  | .cmpAbs _ => ⟨.cmp, .abs, 3, 4, true⟩
  | .decAbs _ => ⟨.dec, .abs, 3, 6, false⟩
  | .dcpAbs _ => ⟨.dcp, .abs, 3, 6, false⟩
  | .bne _ => ⟨.bne, .rel, 2, 2, false⟩
  | .cmpIndY _ => ⟨.cmp, .izy, 2, 5, true⟩
  | .dcpIndY _ => ⟨.dcp, .izy, 2, 8, false⟩
  | .cmpZpX _ => ⟨.cmp, .zpx, 2, 4, true⟩
  | .decZpX _ => ⟨.dec, .zpx, 2, 6, false⟩
  | .dcpZpX _ => ⟨.dcp, .zpx, 2, 6, false⟩
  | .cld => ⟨.cld, .imp, 1, 2, false⟩
  | .cmpAbsY _ => ⟨.cmp, .aby, 3, 4, true⟩
  | .dcpAbsY _ => ⟨.dcp, .aby, 3, 7, false⟩
  | .cmpAbsX _ => ⟨.cmp, .abx, 3, 4, true⟩
  | .decAbsX _ => ⟨.dec, .abx, 3, 7, false⟩
  | .dcpAbsX _ => ⟨.dcp, .abx, 3, 7, false⟩
  | .cpxImm _ => ⟨.cpx, .imm, 2, 2, false⟩
  | .sbcIndX _ => ⟨.sbc, .izx, 2, 6, true⟩
  | .iscIndX _ => ⟨.isc, .izx, 2, 8, false⟩
  | .cpxZp _ => ⟨.cpx, .zp, 2, 3, false⟩
  | .sbcZp _ => ⟨.sbc, .zp, 2, 3, true⟩
  | .incZp _ => ⟨.inc, .zp, 2, 5, false⟩
  | .iscZp _ => ⟨.isc, .zp, 2, 5, false⟩
  | .inx => ⟨.inx, .imp, 1, 2, false⟩
  | .sbcImm _ => ⟨.sbc, .imm, 2, 2, true⟩
  | .nop => ⟨.nop, .imp, 1, 2, false⟩
  | .sbcImmEB _ => ⟨.sbc, .imm, 2, 2, true⟩
  | .cpxAbs _ => ⟨.cpx, .abs, 3, 4, false⟩
  | .sbcAbs _ => ⟨.sbc, .abs, 3, 4, true⟩
  | .incAbs _ => ⟨.inc, .abs, 3, 6, false⟩
  | .iscAbs _ => ⟨.isc, .abs, 3, 6, false⟩
  | .beq _ => ⟨.beq, .rel, 2, 2, false⟩
  | .sbcIndY _ => ⟨.sbc, .izy, 2, 5, true⟩
  | .iscIndY _ => ⟨.isc, .izy, 2, 8, false⟩
  | .sbcZpX _ => ⟨.sbc, .zpx, 2, 4, true⟩
  | .incZpX _ => ⟨.inc, .zpx, 2, 6, false⟩
  | .iscZpX _ => ⟨.isc, .zpx, 2, 6, false⟩
  | .sed => ⟨.sed, .imp, 1, 2, false⟩
  | .sbcAbsY _ => ⟨.sbc, .aby, 3, 4, true⟩
  | .iscAbsY _ => ⟨.isc, .aby, 3, 7, false⟩
  | .sbcAbsX _ => ⟨.sbc, .abx, 3, 4, true⟩
  | .incAbsX _ => ⟨.inc, .abx, 3, 7, false⟩
  | .iscAbsX _ => ⟨.isc, .abx, 3, 7, false⟩

/-! ## The opcode table, byte by byte (R114)

Each entry makes the instruction of one opcode byte from its operand bytes: `l` is the byte at `PC0+1` (d or l of R111),
`h` the byte at `PC0+2`. A row is one high nibble. -/

/-- What an opcode table slot makes of the two bytes after the opcode. -/
abbrev Builder := Byte → Byte → Instr

def opRow0 : Vector Builder 16 := #v[
    fun l _ => .brk l,
    fun l _ => .oraIndX l,
    fun _ _ => .kil 0x02,
    fun l _ => .sloIndX l,
    fun l _ => .nopZp 0x04 l,
    fun l _ => .oraZp l,
    fun l _ => .aslZp l,
    fun l _ => .sloZp l,
    fun _ _ => .php,
    fun l _ => .oraImm l,
    fun _ _ => .aslAcc,
    fun l _ => .ancImm0B l,
    fun l h => .nopAbs (mkAddr h l),
    fun l h => .oraAbs (mkAddr h l),
    fun l h => .aslAbs (mkAddr h l),
    fun l h => .sloAbs (mkAddr h l)]

def opRow1 : Vector Builder 16 := #v[
    fun l _ => .bpl (offsetOfByte l),
    fun l _ => .oraIndY l,
    fun _ _ => .kil 0x12,
    fun l _ => .sloIndY l,
    fun l _ => .nopZpX 0x14 l,
    fun l _ => .oraZpX l,
    fun l _ => .aslZpX l,
    fun l _ => .sloZpX l,
    fun _ _ => .clc,
    fun l h => .oraAbsY (mkAddr h l),
    fun _ _ => .nopImp 0x1A,
    fun l h => .sloAbsY (mkAddr h l),
    fun l h => .nopAbsX 0x1C (mkAddr h l),
    fun l h => .oraAbsX (mkAddr h l),
    fun l h => .aslAbsX (mkAddr h l),
    fun l h => .sloAbsX (mkAddr h l)]

def opRow2 : Vector Builder 16 := #v[
    fun l h => .jsrAbs (mkAddr h l),
    fun l _ => .andIndX l,
    fun _ _ => .kil 0x22,
    fun l _ => .rlaIndX l,
    fun l _ => .bitZp l,
    fun l _ => .andZp l,
    fun l _ => .rolZp l,
    fun l _ => .rlaZp l,
    fun _ _ => .plp,
    fun l _ => .andImm l,
    fun _ _ => .rolAcc,
    fun l _ => .ancImm2B l,
    fun l h => .bitAbs (mkAddr h l),
    fun l h => .andAbs (mkAddr h l),
    fun l h => .rolAbs (mkAddr h l),
    fun l h => .rlaAbs (mkAddr h l)]

def opRow3 : Vector Builder 16 := #v[
    fun l _ => .bmi (offsetOfByte l),
    fun l _ => .andIndY l,
    fun _ _ => .kil 0x32,
    fun l _ => .rlaIndY l,
    fun l _ => .nopZpX 0x34 l,
    fun l _ => .andZpX l,
    fun l _ => .rolZpX l,
    fun l _ => .rlaZpX l,
    fun _ _ => .sec,
    fun l h => .andAbsY (mkAddr h l),
    fun _ _ => .nopImp 0x3A,
    fun l h => .rlaAbsY (mkAddr h l),
    fun l h => .nopAbsX 0x3C (mkAddr h l),
    fun l h => .andAbsX (mkAddr h l),
    fun l h => .rolAbsX (mkAddr h l),
    fun l h => .rlaAbsX (mkAddr h l)]

def opRow4 : Vector Builder 16 := #v[
    fun _ _ => .rti,
    fun l _ => .eorIndX l,
    fun _ _ => .kil 0x42,
    fun l _ => .sreIndX l,
    fun l _ => .nopZp 0x44 l,
    fun l _ => .eorZp l,
    fun l _ => .lsrZp l,
    fun l _ => .sreZp l,
    fun _ _ => .pha,
    fun l _ => .eorImm l,
    fun _ _ => .lsrAcc,
    fun l _ => .alrImm l,
    fun l h => .jmpAbs (mkAddr h l),
    fun l h => .eorAbs (mkAddr h l),
    fun l h => .lsrAbs (mkAddr h l),
    fun l h => .sreAbs (mkAddr h l)]

def opRow5 : Vector Builder 16 := #v[
    fun l _ => .bvc (offsetOfByte l),
    fun l _ => .eorIndY l,
    fun _ _ => .kil 0x52,
    fun l _ => .sreIndY l,
    fun l _ => .nopZpX 0x54 l,
    fun l _ => .eorZpX l,
    fun l _ => .lsrZpX l,
    fun l _ => .sreZpX l,
    fun _ _ => .cli,
    fun l h => .eorAbsY (mkAddr h l),
    fun _ _ => .nopImp 0x5A,
    fun l h => .sreAbsY (mkAddr h l),
    fun l h => .nopAbsX 0x5C (mkAddr h l),
    fun l h => .eorAbsX (mkAddr h l),
    fun l h => .lsrAbsX (mkAddr h l),
    fun l h => .sreAbsX (mkAddr h l)]

def opRow6 : Vector Builder 16 := #v[
    fun _ _ => .rts,
    fun l _ => .adcIndX l,
    fun _ _ => .kil 0x62,
    fun l _ => .rraIndX l,
    fun l _ => .nopZp 0x64 l,
    fun l _ => .adcZp l,
    fun l _ => .rorZp l,
    fun l _ => .rraZp l,
    fun _ _ => .pla,
    fun l _ => .adcImm l,
    fun _ _ => .rorAcc,
    fun l _ => .arrImm l,
    fun l h => .jmpInd (mkAddr h l),
    fun l h => .adcAbs (mkAddr h l),
    fun l h => .rorAbs (mkAddr h l),
    fun l h => .rraAbs (mkAddr h l)]

def opRow7 : Vector Builder 16 := #v[
    fun l _ => .bvs (offsetOfByte l),
    fun l _ => .adcIndY l,
    fun _ _ => .kil 0x72,
    fun l _ => .rraIndY l,
    fun l _ => .nopZpX 0x74 l,
    fun l _ => .adcZpX l,
    fun l _ => .rorZpX l,
    fun l _ => .rraZpX l,
    fun _ _ => .sei,
    fun l h => .adcAbsY (mkAddr h l),
    fun _ _ => .nopImp 0x7A,
    fun l h => .rraAbsY (mkAddr h l),
    fun l h => .nopAbsX 0x7C (mkAddr h l),
    fun l h => .adcAbsX (mkAddr h l),
    fun l h => .rorAbsX (mkAddr h l),
    fun l h => .rraAbsX (mkAddr h l)]

def opRow8 : Vector Builder 16 := #v[
    fun l _ => .nopImm 0x80 l,
    fun l _ => .staIndX l,
    fun l _ => .nopImm 0x82 l,
    fun l _ => .saxIndX l,
    fun l _ => .styZp l,
    fun l _ => .staZp l,
    fun l _ => .stxZp l,
    fun l _ => .saxZp l,
    fun _ _ => .dey,
    fun l _ => .nopImm 0x89 l,
    fun _ _ => .txa,
    fun l _ => .xaaImm l,
    fun l h => .styAbs (mkAddr h l),
    fun l h => .staAbs (mkAddr h l),
    fun l h => .stxAbs (mkAddr h l),
    fun l h => .saxAbs (mkAddr h l)]

def opRow9 : Vector Builder 16 := #v[
    fun l _ => .bcc (offsetOfByte l),
    fun l _ => .staIndY l,
    fun _ _ => .kil 0x92,
    fun l _ => .ahxIndY l,
    fun l _ => .styZpX l,
    fun l _ => .staZpX l,
    fun l _ => .stxZpY l,
    fun l _ => .saxZpY l,
    fun _ _ => .tya,
    fun l h => .staAbsY (mkAddr h l),
    fun _ _ => .txs,
    fun l h => .tasAbsY (mkAddr h l),
    fun l h => .shyAbsX (mkAddr h l),
    fun l h => .staAbsX (mkAddr h l),
    fun l h => .shxAbsY (mkAddr h l),
    fun l h => .ahxAbsY (mkAddr h l)]

def opRowA : Vector Builder 16 := #v[
    fun l _ => .ldyImm l,
    fun l _ => .ldaIndX l,
    fun l _ => .ldxImm l,
    fun l _ => .laxIndX l,
    fun l _ => .ldyZp l,
    fun l _ => .ldaZp l,
    fun l _ => .ldxZp l,
    fun l _ => .laxZp l,
    fun _ _ => .tay,
    fun l _ => .ldaImm l,
    fun _ _ => .tax,
    fun l _ => .laxImm l,
    fun l h => .ldyAbs (mkAddr h l),
    fun l h => .ldaAbs (mkAddr h l),
    fun l h => .ldxAbs (mkAddr h l),
    fun l h => .laxAbs (mkAddr h l)]

def opRowB : Vector Builder 16 := #v[
    fun l _ => .bcs (offsetOfByte l),
    fun l _ => .ldaIndY l,
    fun _ _ => .kil 0xB2,
    fun l _ => .laxIndY l,
    fun l _ => .ldyZpX l,
    fun l _ => .ldaZpX l,
    fun l _ => .ldxZpY l,
    fun l _ => .laxZpY l,
    fun _ _ => .clv,
    fun l h => .ldaAbsY (mkAddr h l),
    fun _ _ => .tsx,
    fun l h => .lasAbsY (mkAddr h l),
    fun l h => .ldyAbsX (mkAddr h l),
    fun l h => .ldaAbsX (mkAddr h l),
    fun l h => .ldxAbsY (mkAddr h l),
    fun l h => .laxAbsY (mkAddr h l)]

def opRowC : Vector Builder 16 := #v[
    fun l _ => .cpyImm l,
    fun l _ => .cmpIndX l,
    fun l _ => .nopImm 0xC2 l,
    fun l _ => .dcpIndX l,
    fun l _ => .cpyZp l,
    fun l _ => .cmpZp l,
    fun l _ => .decZp l,
    fun l _ => .dcpZp l,
    fun _ _ => .iny,
    fun l _ => .cmpImm l,
    fun _ _ => .dex,
    fun l _ => .axsImm l,
    fun l h => .cpyAbs (mkAddr h l),
    fun l h => .cmpAbs (mkAddr h l),
    fun l h => .decAbs (mkAddr h l),
    fun l h => .dcpAbs (mkAddr h l)]

def opRowD : Vector Builder 16 := #v[
    fun l _ => .bne (offsetOfByte l),
    fun l _ => .cmpIndY l,
    fun _ _ => .kil 0xD2,
    fun l _ => .dcpIndY l,
    fun l _ => .nopZpX 0xD4 l,
    fun l _ => .cmpZpX l,
    fun l _ => .decZpX l,
    fun l _ => .dcpZpX l,
    fun _ _ => .cld,
    fun l h => .cmpAbsY (mkAddr h l),
    fun _ _ => .nopImp 0xDA,
    fun l h => .dcpAbsY (mkAddr h l),
    fun l h => .nopAbsX 0xDC (mkAddr h l),
    fun l h => .cmpAbsX (mkAddr h l),
    fun l h => .decAbsX (mkAddr h l),
    fun l h => .dcpAbsX (mkAddr h l)]

def opRowE : Vector Builder 16 := #v[
    fun l _ => .cpxImm l,
    fun l _ => .sbcIndX l,
    fun l _ => .nopImm 0xE2 l,
    fun l _ => .iscIndX l,
    fun l _ => .cpxZp l,
    fun l _ => .sbcZp l,
    fun l _ => .incZp l,
    fun l _ => .iscZp l,
    fun _ _ => .inx,
    fun l _ => .sbcImm l,
    fun _ _ => .nop,
    fun l _ => .sbcImmEB l,
    fun l h => .cpxAbs (mkAddr h l),
    fun l h => .sbcAbs (mkAddr h l),
    fun l h => .incAbs (mkAddr h l),
    fun l h => .iscAbs (mkAddr h l)]

def opRowF : Vector Builder 16 := #v[
    fun l _ => .beq (offsetOfByte l),
    fun l _ => .sbcIndY l,
    fun _ _ => .kil 0xF2,
    fun l _ => .iscIndY l,
    fun l _ => .nopZpX 0xF4 l,
    fun l _ => .sbcZpX l,
    fun l _ => .incZpX l,
    fun l _ => .iscZpX l,
    fun _ _ => .sed,
    fun l h => .sbcAbsY (mkAddr h l),
    fun _ _ => .nopImp 0xFA,
    fun l h => .iscAbsY (mkAddr h l),
    fun l h => .nopAbsX 0xFC (mkAddr h l),
    fun l h => .sbcAbsX (mkAddr h l),
    fun l h => .incAbsX (mkAddr h l),
    fun l h => .iscAbsX (mkAddr h l)]

/-- All 256 slots: sixteen rows by the high nibble of the opcode byte, sixteen columns by the low nibble. -/
def opTable : Vector (Vector Builder 16) 16 := #v[
    opRow0, opRow1, opRow2, opRow3, opRow4, opRow5, opRow6, opRow7,
    opRow8, opRow9, opRowA, opRowB, opRowC, opRowD, opRowE, opRowF]

/-- The slot of an opcode byte. -/
def builderOf (op : Byte) : Builder :=
  (opTable.get ⟨op.toNat / 16, by have := op.isLt; omega⟩).get ⟨op.toNat % 16, by omega⟩

/-- The instruction of an opcode byte and the two bytes after it, read as far as its length goes (R110). -/
def instrOf (op l h : Byte) : Instr := builderOf op l h

/-- The table entry of an opcode byte (R113, `OPTABLE[opcode]` of R141). -/
def entryOf (op : Byte) : Entry := (instrOf op 0 0).entry

/-! ## The decoder -/

/-- Why a byte string is not an instruction. There is no illegal opcode (R117). -/
inductive DecodeError where
  /-- no byte at all -/
  | noBytes
  /-- the string ends before the operand bytes of this opcode -/
  | truncated (op : Byte)
  deriving DecidableEq, Repr

/-- Reads one instruction from the front of a byte string and returns it with the bytes after it (R110, R111, R120). -/
def decode : List Byte → Except DecodeError (Instr × List Byte)
  | [] => .error .noBytes
  | op :: rest =>
    match (entryOf op).length, rest with
    | 1, rest => .ok (instrOf op 0 0, rest)
    | 2, l :: rest => .ok (instrOf op l 0, rest)
    | 3, l :: h :: rest => .ok (instrOf op l h, rest)
    | _, _ => .error (.truncated op)

/-- The three bytes of a table word: bits 7..0 first, bits above `nbits` zero (spec/opcode_table.json's numbering is
little-endian by bytes, R111). -/
def tableWordBytes (nbits w : Nat) : List Byte :=
  let v := w % 2 ^ nbits
  [BitVec.ofNat 8 v, BitVec.ofNat 8 (v / 256), BitVec.ofNat 8 (v / 65536)]

/-- The instruction the decoder reads from a word numbered as spec/opcode_table.json numbers it. -/
def decodeTableWord (nbits w : Nat) : Option Instr :=
  match decode (tableWordBytes nbits w) with
  | .ok (i, _) => some i
  | .error _ => none

/-! ## The encoder (R111, R115, R116) -/

/-- An opcode and a 16-bit operand, low byte first (format F3). -/
def bytesF3 (op : Byte) (a : Addr) : List Byte := [op, loByte a, hiByte a]

/-- The bytes of an instruction in address order. -/
def encode : Instr → List Byte
  | .brk pad => [0x00, pad]
  | .oraIndX d => [0x01, d]
  | .kil op => [op]
  | .sloIndX d => [0x03, d]
  | .nopZp op d => [op, d]
  | .oraZp d => [0x05, d]
  | .aslZp d => [0x06, d]
  | .sloZp d => [0x07, d]
  | .php => [0x08]
  | .oraImm d => [0x09, d]
  | .aslAcc => [0x0A]
  | .ancImm0B d => [0x0B, d]
  | .nopAbs a => bytesF3 0x0C a
  | .oraAbs a => bytesF3 0x0D a
  | .aslAbs a => bytesF3 0x0E a
  | .sloAbs a => bytesF3 0x0F a
  | .bpl offset => [0x10, byteOfOffset offset]
  | .oraIndY d => [0x11, d]
  | .sloIndY d => [0x13, d]
  | .nopZpX op d => [op, d]
  | .oraZpX d => [0x15, d]
  | .aslZpX d => [0x16, d]
  | .sloZpX d => [0x17, d]
  | .clc => [0x18]
  | .oraAbsY a => bytesF3 0x19 a
  | .nopImp op => [op]
  | .sloAbsY a => bytesF3 0x1B a
  | .nopAbsX op a => bytesF3 op a
  | .oraAbsX a => bytesF3 0x1D a
  | .aslAbsX a => bytesF3 0x1E a
  | .sloAbsX a => bytesF3 0x1F a
  | .jsrAbs a => bytesF3 0x20 a
  | .andIndX d => [0x21, d]
  | .rlaIndX d => [0x23, d]
  | .bitZp d => [0x24, d]
  | .andZp d => [0x25, d]
  | .rolZp d => [0x26, d]
  | .rlaZp d => [0x27, d]
  | .plp => [0x28]
  | .andImm d => [0x29, d]
  | .rolAcc => [0x2A]
  | .ancImm2B d => [0x2B, d]
  | .bitAbs a => bytesF3 0x2C a
  | .andAbs a => bytesF3 0x2D a
  | .rolAbs a => bytesF3 0x2E a
  | .rlaAbs a => bytesF3 0x2F a
  | .bmi offset => [0x30, byteOfOffset offset]
  | .andIndY d => [0x31, d]
  | .rlaIndY d => [0x33, d]
  | .andZpX d => [0x35, d]
  | .rolZpX d => [0x36, d]
  | .rlaZpX d => [0x37, d]
  | .sec => [0x38]
  | .andAbsY a => bytesF3 0x39 a
  | .rlaAbsY a => bytesF3 0x3B a
  | .andAbsX a => bytesF3 0x3D a
  | .rolAbsX a => bytesF3 0x3E a
  | .rlaAbsX a => bytesF3 0x3F a
  | .rti => [0x40]
  | .eorIndX d => [0x41, d]
  | .sreIndX d => [0x43, d]
  | .eorZp d => [0x45, d]
  | .lsrZp d => [0x46, d]
  | .sreZp d => [0x47, d]
  | .pha => [0x48]
  | .eorImm d => [0x49, d]
  | .lsrAcc => [0x4A]
  | .alrImm d => [0x4B, d]
  | .jmpAbs a => bytesF3 0x4C a
  | .eorAbs a => bytesF3 0x4D a
  | .lsrAbs a => bytesF3 0x4E a
  | .sreAbs a => bytesF3 0x4F a
  | .bvc offset => [0x50, byteOfOffset offset]
  | .eorIndY d => [0x51, d]
  | .sreIndY d => [0x53, d]
  | .eorZpX d => [0x55, d]
  | .lsrZpX d => [0x56, d]
  | .sreZpX d => [0x57, d]
  | .cli => [0x58]
  | .eorAbsY a => bytesF3 0x59 a
  | .sreAbsY a => bytesF3 0x5B a
  | .eorAbsX a => bytesF3 0x5D a
  | .lsrAbsX a => bytesF3 0x5E a
  | .sreAbsX a => bytesF3 0x5F a
  | .rts => [0x60]
  | .adcIndX d => [0x61, d]
  | .rraIndX d => [0x63, d]
  | .adcZp d => [0x65, d]
  | .rorZp d => [0x66, d]
  | .rraZp d => [0x67, d]
  | .pla => [0x68]
  | .adcImm d => [0x69, d]
  | .rorAcc => [0x6A]
  | .arrImm d => [0x6B, d]
  | .jmpInd a => bytesF3 0x6C a
  | .adcAbs a => bytesF3 0x6D a
  | .rorAbs a => bytesF3 0x6E a
  | .rraAbs a => bytesF3 0x6F a
  | .bvs offset => [0x70, byteOfOffset offset]
  | .adcIndY d => [0x71, d]
  | .rraIndY d => [0x73, d]
  | .adcZpX d => [0x75, d]
  | .rorZpX d => [0x76, d]
  | .rraZpX d => [0x77, d]
  | .sei => [0x78]
  | .adcAbsY a => bytesF3 0x79 a
  | .rraAbsY a => bytesF3 0x7B a
  | .adcAbsX a => bytesF3 0x7D a
  | .rorAbsX a => bytesF3 0x7E a
  | .rraAbsX a => bytesF3 0x7F a
  | .nopImm op d => [op, d]
  | .staIndX d => [0x81, d]
  | .saxIndX d => [0x83, d]
  | .styZp d => [0x84, d]
  | .staZp d => [0x85, d]
  | .stxZp d => [0x86, d]
  | .saxZp d => [0x87, d]
  | .dey => [0x88]
  | .txa => [0x8A]
  | .xaaImm d => [0x8B, d]
  | .styAbs a => bytesF3 0x8C a
  | .staAbs a => bytesF3 0x8D a
  | .stxAbs a => bytesF3 0x8E a
  | .saxAbs a => bytesF3 0x8F a
  | .bcc offset => [0x90, byteOfOffset offset]
  | .staIndY d => [0x91, d]
  | .ahxIndY d => [0x93, d]
  | .styZpX d => [0x94, d]
  | .staZpX d => [0x95, d]
  | .stxZpY d => [0x96, d]
  | .saxZpY d => [0x97, d]
  | .tya => [0x98]
  | .staAbsY a => bytesF3 0x99 a
  | .txs => [0x9A]
  | .tasAbsY a => bytesF3 0x9B a
  | .shyAbsX a => bytesF3 0x9C a
  | .staAbsX a => bytesF3 0x9D a
  | .shxAbsY a => bytesF3 0x9E a
  | .ahxAbsY a => bytesF3 0x9F a
  | .ldyImm d => [0xA0, d]
  | .ldaIndX d => [0xA1, d]
  | .ldxImm d => [0xA2, d]
  | .laxIndX d => [0xA3, d]
  | .ldyZp d => [0xA4, d]
  | .ldaZp d => [0xA5, d]
  | .ldxZp d => [0xA6, d]
  | .laxZp d => [0xA7, d]
  | .tay => [0xA8]
  | .ldaImm d => [0xA9, d]
  | .tax => [0xAA]
  | .laxImm d => [0xAB, d]
  | .ldyAbs a => bytesF3 0xAC a
  | .ldaAbs a => bytesF3 0xAD a
  | .ldxAbs a => bytesF3 0xAE a
  | .laxAbs a => bytesF3 0xAF a
  | .bcs offset => [0xB0, byteOfOffset offset]
  | .ldaIndY d => [0xB1, d]
  | .laxIndY d => [0xB3, d]
  | .ldyZpX d => [0xB4, d]
  | .ldaZpX d => [0xB5, d]
  | .ldxZpY d => [0xB6, d]
  | .laxZpY d => [0xB7, d]
  | .clv => [0xB8]
  | .ldaAbsY a => bytesF3 0xB9 a
  | .tsx => [0xBA]
  | .lasAbsY a => bytesF3 0xBB a
  | .ldyAbsX a => bytesF3 0xBC a
  | .ldaAbsX a => bytesF3 0xBD a
  | .ldxAbsY a => bytesF3 0xBE a
  | .laxAbsY a => bytesF3 0xBF a
  | .cpyImm d => [0xC0, d]
  | .cmpIndX d => [0xC1, d]
  | .dcpIndX d => [0xC3, d]
  | .cpyZp d => [0xC4, d]
  | .cmpZp d => [0xC5, d]
  | .decZp d => [0xC6, d]
  | .dcpZp d => [0xC7, d]
  | .iny => [0xC8]
  | .cmpImm d => [0xC9, d]
  | .dex => [0xCA]
  | .axsImm d => [0xCB, d]
  | .cpyAbs a => bytesF3 0xCC a
  | .cmpAbs a => bytesF3 0xCD a
  | .decAbs a => bytesF3 0xCE a
  | .dcpAbs a => bytesF3 0xCF a
  | .bne offset => [0xD0, byteOfOffset offset]
  | .cmpIndY d => [0xD1, d]
  | .dcpIndY d => [0xD3, d]
  | .cmpZpX d => [0xD5, d]
  | .decZpX d => [0xD6, d]
  | .dcpZpX d => [0xD7, d]
  | .cld => [0xD8]
  | .cmpAbsY a => bytesF3 0xD9 a
  | .dcpAbsY a => bytesF3 0xDB a
  | .cmpAbsX a => bytesF3 0xDD a
  | .decAbsX a => bytesF3 0xDE a
  | .dcpAbsX a => bytesF3 0xDF a
  | .cpxImm d => [0xE0, d]
  | .sbcIndX d => [0xE1, d]
  | .iscIndX d => [0xE3, d]
  | .cpxZp d => [0xE4, d]
  | .sbcZp d => [0xE5, d]
  | .incZp d => [0xE6, d]
  | .iscZp d => [0xE7, d]
  | .inx => [0xE8]
  | .sbcImm d => [0xE9, d]
  | .nop => [0xEA]
  | .sbcImmEB d => [0xEB, d]
  | .cpxAbs a => bytesF3 0xEC a
  | .sbcAbs a => bytesF3 0xED a
  | .incAbs a => bytesF3 0xEE a
  | .iscAbs a => bytesF3 0xEF a
  | .beq offset => [0xF0, byteOfOffset offset]
  | .sbcIndY d => [0xF1, d]
  | .iscIndY d => [0xF3, d]
  | .sbcZpX d => [0xF5, d]
  | .incZpX d => [0xF6, d]
  | .iscZpX d => [0xF7, d]
  | .sed => [0xF8]
  | .sbcAbsY a => bytesF3 0xF9 a
  | .iscAbsY a => bytesF3 0xFB a
  | .sbcAbsX a => bytesF3 0xFD a
  | .incAbsX a => bytesF3 0xFE a
  | .iscAbsX a => bytesF3 0xFF a

end Sys2Proof
end

