-- ==== Sys2Proof/Config.lean ====
section
/-! DEFINITION. What the spec leaves to the implementation or the platform: uninterpreted constants, with no value that a
proof could use (spec 92_eei_decisions.md "Open parameters", 93_implementation_defined.md U3, U4, U12). -/

namespace Sys2Proof.Config

/-- `XAA_MAGIC`, an 8-bit parameter "with no default" (46_undocumented.md R332; log 10). -/
opaque xaaMagic : Byte

/-- `LAX_MAGIC`, an 8-bit parameter "with no default" (46_undocumented.md R341; log 10). -/
opaque laxMagic : Byte

/-- What a device other than the source's memory device answers to a read, and the inner state the read leaves: a parameter
of the platform (20_memory.md R80; log 13). Arguments: the device's identity, its inner state, the full bus address. -/
opaque deviceRead : Nat → Nat → Addr → Byte × Nat

/-- The inner state such a device has after a write (R80; log 13). -/
opaque deviceWrite : Nat → Nat → Addr → Byte → Nat

/-- The inner state such a device has after the registry's "reset all" (R80, 70_reset_and_hazards.md R414; log 13). -/
opaque deviceReset : Nat → Nat → Nat

end Sys2Proof.Config
end

