-- ==== Sys2Proof/Machine/State.lean ====
section
/-! DEFINITION. The machine's state, why a step can stop, and the state after reset (spec 10_state.md R30 to R49). -/

namespace Sys2Proof.Machine

/-- The interrupt-status latch: one three-valued field (R40). -/
inductive Intr where
  | none
  | irq
  | nmi
  deriving DecidableEq, Repr

/-- The bytes of a memory device that are not 0x00, by rising address; an unlisted address holds 0x00 (log 5). -/
abbrev Memory := List Host.Cell

/-- The three flavours of the source's memory device (20_memory.md R81). -/
inductive MemKind where
  /-- no write capability; not registered for reset -/
  | readOnly
  /-- read-write, zero-filled by "reset all" -/
  | tracked
  /-- read-write, left alone by "reset all" -/
  | untracked
  deriving DecidableEq, Repr

/-- A device on the bus (20_memory.md R80, R81). -/
inductive Device where
  /-- The source's memory device: its flavour, its size, its buffer. -/
  | memory (kind : MemKind) (size : Nat) (cells : Memory)
  /-- Any other device: its identity, whether it offers a write capability, its inner state; what it does is
  `Config.deviceRead` and `Config.deviceWrite` (log 13). -/
  | foreign (id : Nat) (writable : Bool) (inner : Nat)
  deriving DecidableEq, Repr

/-- The complete state (R30). The transient fields `mode`, `ea`, `opnd` are local values of the step (R43; log 6). -/
structure State where
  a       : Byte
  x       : Byte
  y       : Byte
  sp      : Byte
  /-- the status register, N V U B D I Z C from bit 7 to bit 0 (R36) -/
  p       : Byte
  pc      : Addr
  intr    : Intr
  halted  : Bool
  /-- elapsed clock cycles; no instruction reads it (R42) -/
  cycles  : Nat
  /-- the bus: for each page, the number of the device mapped there, if any (R44) -/
  slots   : Vector (Option Nat) 256
  /-- the devices by number; a released device is `none`, and a slot that names it behaves as empty (R45,
  20_memory.md R76; log 14) -/
  devices : List (Option Device)
  deriving DecidableEq, Repr

/-- Why the machine stops. -/
inductive Fault where
  /-- Raised by a bus read or write of a memory device at an address not below its size, in any instruction, interrupt
  service or reset: `PlatformFault(DeviceOutOfRange, a)`, a fault of the platform's mapping after which no state is
  defined (20_memory.md R83). Safe: the machine stops. -/
  | deviceOutOfRange (a : Addr)
  /-- Raised by `step` when `halted = 1`: there is no transition until the host's reset (40_step_and_addressing.md R140,
  R144). Safe: the machine stops (log 7). -/
  | halted
  /-- Raised by no step: by a host that asks for one while it is still building the platform, before the reset that ends
  construction ("a model has no step before that first reset", 70_reset_and_hazards.md R412). Safe: the run stops (log 23). -/
  | notReset
  deriving DecidableEq, Repr

/-- Why an instruction has no meaning in the model. -/
inductive Refusal where
  /-- Raised by an arm of `exec` whose instruction has no meaning yet; no arm does. Safe. -/
  | notModelled (mnemonic : String)
  deriving DecidableEq, Repr

/-- What a step or a meaning answers. -/
abbrev Result := Host.Outcome State Fault Refusal

/-- A bus action's answer: a value and the state after it, or the platform fault. -/
inductive Res (α : Type) where
  | ok (v : α) (s : State)
  | fault (r : Fault)
  deriving Repr

/-! ## Updates, one per field -/

def State.setA (v : Byte) (s : State) : State := { s with a := v }
def State.setX (v : Byte) (s : State) : State := { s with x := v }
def State.setY (v : Byte) (s : State) : State := { s with y := v }
def State.setSP (v : Byte) (s : State) : State := { s with sp := v }
def State.setP (v : Byte) (s : State) : State := { s with p := v }
def State.setPC (v : Addr) (s : State) : State := { s with pc := v }
def State.setIntr (v : Intr) (s : State) : State := { s with intr := v }
def State.setHalted (v : Bool) (s : State) : State := { s with halted := v }
def State.addCycles (n : Nat) (s : State) : State := { s with cycles := s.cycles + n }
def State.setSlots (v : Vector (Option Nat) 256) (s : State) : State := { s with slots := v }
def State.setDevices (v : List (Option Device)) (s : State) : State := { s with devices := v }

/-! ## Reset -/

/-- The one 64 KiB read-write device of the reference platform (20_memory.md R85; log 4). -/
def referenceRam : Device := .memory .tracked 0x10000 []

/-- The machine right after reset on the reference platform with nothing stored (70_reset_and_hazards.md R410, R411): SP,
P.I, P.U, `intr` and `halted` as R411 gives them, PC the word at 0xFFFC of a memory that lists nothing; A, X, Y (log 1), the
other flags (log 2) and `cycles` (log 3) are DESIGN CHOICES, the platform is log 4. -/
def State.reset : State where
  a := 0
  x := 0
  y := 0
  sp := 0xFD
  p := 0x24
  pc := 0x0000
  intr := .none
  halted := false
  cycles := 0
  slots := Vector.replicate 256 (some 0)
  devices := [some referenceRam]

end Sys2Proof.Machine
end

