-- ==== Sys2Proof/Machine/Flags.lean ====
section
/-! DEFINITION. The status register's flags and every computation that sets them, on plain bytes: `p` is the status register
before, and a pair is (result byte, status register after) (spec 10_state.md R36; files 41, 42, 43, 46). -/

namespace Sys2Proof.Machine

/-- The eight flags of P (R36). -/
inductive Flag where
  | c | z | i | d | b | u | v | n
  deriving DecidableEq, Repr

/-- The bit of P that holds a flag (R36). -/
def Flag.bit : Flag → Nat
  | .c => 0
  | .z => 1
  | .i => 2
  | .d => 3
  | .b => 4
  | .u => 5
  | .v => 6
  | .n => 7

/-- The mask of a flag (R36). -/
def Flag.mask : Flag → Byte
  | .c => 0x01
  | .z => 0x02
  | .i => 0x04
  | .d => 0x08
  | .b => 0x10
  | .u => 0x20
  | .v => 0x40
  | .n => 0x80

/-- A flag of a status byte. -/
def getFlag (f : Flag) (p : Byte) : Bool := p.getLsbD f.bit

/-- A status byte with one flag set or cleared. -/
def putFlag (f : Flag) (on : Bool) (p : Byte) : Byte :=
  if on then p ||| f.mask else p &&& ~~~f.mask

/-- `setZN(v)` (00_scope.md R11). -/
def setZN (v p : Byte) : Byte := putFlag .n v.msb (putFlag .z (v == 0) p)

/-- The byte of a bit: 0 or 1. -/
def byteOfBit (c : Bool) : Byte := if c then 1 else 0

/-- `Compare(r, m)` (41_load_transfer_logical.md R200): C is the unsigned `r ≥ m`. -/
def compareFlags (r m p : Byte) : Byte :=
  setZN (r - m) (putFlag .c (decide (m.toNat ≤ r.toNat)) p)

/-- BIT's flags (R196): Z from `A & m`, N and V from bits 7 and 6 of the operand. -/
def bitFlags (a m p : Byte) : Byte :=
  putFlag .v (m.getLsbD 6) (putFlag .n (m.getLsbD 7) (putFlag .z (a &&& m == 0) p))

/-! ## Addition and subtraction (42_arithmetic.md) -/

/-- `AddBinary(a, m, c)` (R222). -/
def addBinary (a m : Byte) (c : Bool) (p : Byte) : Byte × Byte :=
  let s := a.toNat + m.toNat + c.toNat
  let r : Byte := BitVec.ofNat 8 s
  (r, setZN r (putFlag .v ((a ^^^ r) &&& (m ^^^ r)).msb (putFlag .c (decide (s > 255)) p)))

/-- `SubBinary(a, m, c)`: addition of the one's complement (R224). -/
def subBinary (a m : Byte) (c : Bool) (p : Byte) : Byte × Byte := addBinary a (m ^^^ 0xFF) c p

/-- The low-nibble sum of `AddDecimal` after its correction (R223). -/
def addDecimalLow (a m : Byte) (c : Bool) : Nat :=
  let al := a.toNat % 16 + m.toNat % 16 + c.toNat
  if al ≥ 0x0A then (al + 0x06) % 16 + 0x10 else al

/-- The intermediate `s` of `AddDecimal`, before the high-nibble correction (R223). -/
def addDecimalMid (a m : Byte) (c : Bool) : Nat :=
  a.toNat / 16 * 16 + m.toNat / 16 * 16 + addDecimalLow a m c

/-- `AddDecimal(a, m, c)` (R223): N and V from the intermediate, Z from the binary sum, C from the corrected sum. -/
def addDecimal (a m : Byte) (c : Bool) (p : Byte) : Byte × Byte :=
  let mid := addDecimalMid a m c
  let sb : Byte := BitVec.ofNat 8 mid
  let s := if mid ≥ 0xA0 then mid + 0x60 else mid
  (BitVec.ofNat 8 s,
    putFlag .c (decide (s ≥ 0x100))
      (putFlag .z (decide ((a.toNat + m.toNat + c.toNat) % 256 = 0))
        (putFlag .v ((a ^^^ sb) &&& (m ^^^ sb)).msb
          (putFlag .n sb.msb p))))

/-- The low-nibble difference of `SubDecimal` after its correction; `& 0x0F` of a negative number is on its two's-complement
form (R225). -/
def subDecimalLow (a m : Byte) (c : Bool) : Int :=
  let al : Int := (a.toNat % 16 : Nat) - (m.toNat % 16 : Nat) + (c.toNat : Nat) - 1
  if al < 0 then (al - 0x06) % 16 - 0x10 else al

/-- `SubDecimal(a, m, c)` (R225): the flags of the binary subtraction, the result corrected nibble by nibble. -/
def subDecimal (a m : Byte) (c : Bool) (p : Byte) : Byte × Byte :=
  let s : Int := (a.toNat / 16 * 16 : Nat) - (m.toNat / 16 * 16 : Nat) + subDecimalLow a m c
  (BitVec.ofInt 8 (if s < 0 then s - 0x60 else s), (subBinary a m c p).2)

/-- `AddWithCarry(m)` on A and P (R227). -/
def addWithCarry (a m p : Byte) : Byte × Byte :=
  if getFlag .d p then addDecimal a m (getFlag .c p) p else addBinary a m (getFlag .c p) p

/-- `SubWithBorrow(m)` on A and P (R227). -/
def subWithBorrow (a m p : Byte) : Byte × Byte :=
  if getFlag .d p then subDecimal a m (getFlag .c p) p else subBinary a m (getFlag .c p) p

/-! ## Shifts, rotates, increments, decrements (43_shift_rmw.md) -/

/-- ASL (R241). -/
def aslByte (v p : Byte) : Byte × Byte :=
  let r := v <<< 1
  (r, setZN r (putFlag .c (v.getLsbD 7) p))

/-- LSR (R242). -/
def lsrByte (v p : Byte) : Byte × Byte :=
  let r := v >>> 1
  (r, setZN r (putFlag .c (v.getLsbD 0) p))

/-- ROL (R243): a nine-bit rotation of C and v. -/
def rolByte (v p : Byte) : Byte × Byte :=
  let r := (v <<< 1) ||| byteOfBit (getFlag .c p)
  (r, setZN r (putFlag .c (v.getLsbD 7) p))

/-- ROR (R244). -/
def rorByte (v p : Byte) : Byte × Byte :=
  let r := (v >>> 1) ||| (byteOfBit (getFlag .c p) <<< 7)
  (r, setZN r (putFlag .c (v.getLsbD 0) p))

/-- INC (R245): C and V unchanged. -/
def incByte (v p : Byte) : Byte × Byte := (v + 1, setZN (v + 1) p)

/-- DEC (R246): C and V unchanged. -/
def decByte (v p : Byte) : Byte × Byte := (v - 1, setZN (v - 1) p)

/-! ## The stable undocumented opcodes that are not plain combinations (46_undocumented.md) -/

/-- ANC (R329): AND, then C from bit 7 of the result. -/
def ancByte (a m p : Byte) : Byte × Byte :=
  let r := a &&& m
  (r, putFlag .c (r.getLsbD 7) (setZN r p))

/-- ALR (R330): AND, then LSR. -/
def alrByte (a m p : Byte) : Byte × Byte := lsrByte (a &&& m) p

/-- ARR's result in decimal mode: `t` is A AND operand, `r` the rotated byte (R331). -/
def arrDecimalResult (t r : Byte) : Byte :=
  let r1 := if t.toNat % 16 + t.toNat % 2 > 5 then (r &&& 0xF0) ||| ((r + 6) &&& 0x0F) else r
  if t.toNat / 16 + t.toNat / 16 % 2 > 5 then r1 + 0x60 else r1

/-- ARR (R331). -/
def arrByte (a m p : Byte) : Byte × Byte :=
  let t := a &&& m
  let r := (t >>> 1) ||| (byteOfBit (getFlag .c p) <<< 7)
  let p1 := setZN r p
  if getFlag .d p then
    (arrDecimalResult t r,
      putFlag .c (decide (t.toNat / 16 + t.toNat / 16 % 2 > 5)) (putFlag .v ((t ^^^ r).getLsbD 6) p1))
  else
    (r, putFlag .v (r.getLsbD 6 ^^ r.getLsbD 5) (putFlag .c (r.getLsbD 6) p1))

/-! ## Branch conditions (44_branch.md R261 to R268) -/

/-- Whether a branch mnemonic branches under status register `p`; false for a mnemonic that is no branch. -/
def branchCond : Mnemonic → Byte → Bool
  | .bcc, p => !getFlag .c p
  | .bcs, p => getFlag .c p
  | .beq, p => getFlag .z p
  | .bne, p => !getFlag .z p
  | .bmi, p => getFlag .n p
  | .bpl, p => !getFlag .n p
  | .bvc, p => !getFlag .v p
  | .bvs, p => getFlag .v p
  | _, _ => false

end Sys2Proof.Machine
end

