-- ==== Sys2Proof/Machine/Memory.lean ====
section
/-! DEFINITION. The byte buffer of a memory device in one canonical form: addresses strictly rising, no entry equal to the
0x00 that an unlisted address holds (spec 20_memory.md R81; log 5). -/

namespace Sys2Proof.Machine

/-- The byte at an address. -/
def Memory.read : Memory → Nat → Byte
  | [], _ => 0
  | (k, w) :: m, a => if k = a then w else Memory.read m a

/-- Stores a byte and keeps the canonical form: storing 0x00 removes the entry. -/
def Memory.write : Memory → Nat → Byte → Memory
  | [], a, v => if v = 0 then [] else [(a, v)]
  | (k, w) :: m, a, v =>
    if a < k then (if v = 0 then (k, w) :: m else (a, v) :: (k, w) :: m)
    else if a = k then (if v = 0 then m else (a, v) :: m)
    else (k, w) :: Memory.write m a v

/-- The canonical form. -/
def Memory.wf : Memory → Bool
  | [] => true
  | (k, w) :: m => (w != 0) && m.all (fun c => decide (k < c.1)) && Memory.wf m

/-- A device's buffer is canonical and lies below its size (R81, R83). -/
def Device.wf : Device → Bool
  | .memory _ size cells => Memory.wf cells && cells.all (fun c => decide (c.1 < size))
  | .foreign _ _ _ => true

/-- Every present device is well formed. -/
def State.memoryWf (s : State) : Bool :=
  s.devices.all fun d => match d with
    | some dev => dev.wf
    | none => true

end Sys2Proof.Machine
end

