-- ==== Sys2Proof/Machine/Ops.lean ====
section
/-! DEFINITION. The shared operations over the bus, the stack and the program counter, taking an interrupt and returning
from one (spec 20_memory.md, 60_exceptions.md). -/

namespace Sys2Proof.Machine

/-- Runs one bus action after another, in order (20_memory.md R95). -/
def Res.bind {α β : Type} (r : Res α) (k : α → State → Res β) : Res β :=
  match r with
  | .ok v s => k v s
  | .fault f => .fault f

/-- The answer of a finished instruction or interrupt service. -/
def Res.toResult (r : Res Unit) : Result :=
  match r with
  | .ok _ s => .next s
  | .fault f => .fault f

/-! ## The bus (20_memory.md R70 to R83) -/

/-- The page of an address: which slot serves it (R70). -/
def pageOf (a : Addr) : Fin 256 := ⟨(hiByte a).toNat, (hiByte a).isLt⟩

/-- The device in a slot with its number; nothing for an empty slot or a released device (R71, R76). -/
def State.slotDevice (s : State) (page : Fin 256) : Option (Nat × Device) :=
  match s.slots.get page with
  | none => none
  | some d =>
    match s.devices[d]? with
    | some (some dev) => some (d, dev)
    | _ => none

/-- Replaces device `d`. -/
def State.putDevice (d : Nat) (dev : Device) (s : State) : State := s.setDevices (s.devices.set d (some dev))

/-- `BusRead(a)` (R73, R80 to R83): an empty slot reads 0x00; a device gets the full address. -/
def busRead (a : Addr) (s : State) : Res Byte :=
  match s.slotDevice (pageOf a) with
  | none => .ok 0 s
  | some (_, .memory _ size cells) =>
    if a.toNat < size then .ok (Memory.read cells a.toNat) s else .fault (.deviceOutOfRange a)
  | some (d, .foreign id w inner) =>
    .ok (Config.deviceRead id inner a).1 (s.putDevice d (.foreign id w (Config.deviceRead id inner a).2))

/-- `BusWrite(a, v)` (R74, R80 to R83): dropped by an empty slot and by a device with no write capability. -/
def busWrite (a : Addr) (v : Byte) (s : State) : Res Unit :=
  match s.slotDevice (pageOf a) with
  | none => .ok () s
  | some (d, .memory kind size cells) =>
    if kind = .readOnly then .ok () s
    else if a.toNat < size then .ok () (s.putDevice d (.memory kind size (Memory.write cells a.toNat v)))
    else .fault (.deviceOutOfRange a)
  | some (d, .foreign id w inner) =>
    if w then .ok () (s.putDevice d (.foreign id w (Config.deviceWrite id inner a v))) else .ok () s

/-- The byte an address holds, read without a bus access: 0x00 for an empty slot, the buffer's byte for a memory device in
range; none where the read would fault or belongs to a device whose bytes are its own affair. -/
def State.byteAt (s : State) (a : Addr) : Option Byte :=
  match s.slotDevice (pageOf a) with
  | none => some 0
  | some (_, .memory _ size cells) => if a.toNat < size then some (Memory.read cells a.toNat) else none
  | some (_, .foreign _ _ _) => none

/-- `MemRead(a, 2)`: the low byte first, no page wrap; used for the vectors (00_scope.md R9, R86). -/
def readWord (a : Addr) (s : State) : Res Addr :=
  (busRead a s).bind fun lo s =>
  (busRead (a + 1) s).bind fun hi s =>
  .ok (mkAddr hi lo) s

/-- The address after `p` inside the page of `p` (40_step_and_addressing.md R150). -/
def nextInPage (p : Addr) : Addr := mkAddr (hiByte p) (loByte p + 1)

/-- `ReadPtr(p)`: the pointer read that wraps inside its page (R150). -/
def readPtr (p : Addr) (s : State) : Res Addr :=
  (busRead p s).bind fun lo s =>
  (busRead (nextInPage p) s).bind fun hi s =>
  .ok (mkAddr hi lo) s

/-! ## The stack (20_memory.md R90, R91) -/

/-- `0x0100 | SP` (10_state.md R34). -/
def stackAddr (sp : Byte) : Addr := mkAddr 0x01 sp

/-- `push(v)` (R90). -/
def push (v : Byte) (s : State) : Res Unit :=
  (busWrite (stackAddr s.sp) v s).bind fun _ s => .ok () (s.setSP (s.sp - 1))

/-- `pop()` (R91). -/
def pop (s : State) : Res Byte := busRead (stackAddr (s.sp + 1)) (s.setSP (s.sp + 1))

/-- Pushes a 16-bit address, high byte first (R86). -/
def pushAddr (a : Addr) (s : State) : Res Unit :=
  (push (hiByte a) s).bind fun _ s => push (loByte a) s

/-- Pops a 16-bit address, low byte first. -/
def popAddr (s : State) : Res Addr :=
  (pop s).bind fun lo s =>
  (pop s).bind fun hi s =>
  .ok (mkAddr hi lo) s

/-! ## Taking an interrupt and returning from one (60_exceptions.md R376 to R379, 45_stack_control.md R284) -/

/-- The NMI vector's address (R89, R370). -/
def nmiVector : Addr := 0xFFFA

/-- The reset vector's address (R89, R370). -/
def resetVector : Addr := 0xFFFC

/-- The vector that IRQ and BRK share (R89, R370). -/
def irqVector : Addr := 0xFFFE

/-- The status byte PHP and BRK push: Break and Unused forced to 1 (R286, R376). -/
def pushedByInstruction (p : Byte) : Byte := p ||| 0x30

/-- The status byte IRQ and NMI push: Break cleared, Unused forced to 1 (R376). -/
def pushedByInterrupt (p : Byte) : Byte := (p &&& 0xEF) ||| 0x20

/-- The status register PLP and RTI make of a popped byte: Unused forced to 1, Break as popped (R284, R288). -/
def statusOfPopped (v : Byte) : Byte := v ||| 0x20

/-- `InterruptEntry(vector, bflag)`, common to NMI, IRQ and BRK (R376). -/
def interruptEntry (vector : Addr) (bflag : Bool) (s : State) : Res Unit :=
  (pushAddr s.pc s).bind fun _ s =>
  (push (if bflag then pushedByInstruction s.p else pushedByInterrupt s.p) s).bind fun _ s =>
  (readWord vector (s.setP (putFlag .i true s.p))).bind fun target s =>
  .ok () (s.setPC target)

/-- RTI's body: P, then PC low, then PC high, no increment (R284, R382). -/
def interruptReturn (s : State) : Res Unit :=
  (pop s).bind fun v s =>
  (popAddr (s.setP (statusOfPopped v))).bind fun target s =>
  .ok () (s.setPC target)

/-- Interrupt service takes 7 cycles (70_reset_and_hazards.md R437). -/
def serviceCycles : Nat := 7

/-- A whole NMI or IRQ service step (R377, R378). -/
def serviceInterrupt (vector : Addr) (s : State) : Res Unit :=
  (interruptEntry vector false s).bind fun _ s =>
  .ok () ((s.addCycles serviceCycles).setIntr .none)

/-- What the next step does (R140). -/
inductive Event where
  | locked
  | nmi
  | irq
  | instruction
  deriving DecidableEq, Repr

/-- The choice at the start of a step, in R140's order: halted, NMI, IRQ if P.I = 0, else an instruction (R374). -/
def nextEvent (s : State) : Event :=
  if s.halted then .locked
  else match s.intr with
    | .nmi => .nmi
    | .irq => if getFlag .i s.p then .instruction else .irq
    | .none => .instruction

end Sys2Proof.Machine
end

