-- ==== Sys2Proof/Machine/Operands.lean ====
section
/-! DEFINITION. The addressing-mode resolvers and the shapes every instruction is made of (spec
40_step_and_addressing.md R141, R150 to R167; 43_shift_rmw.md R240; 46_undocumented.md R320). -/

namespace Sys2Proof.Machine

/-- An operand of one of the nine modes that name an address. -/
inductive MemOperand where
  | zp  (d : Byte)
  | zpx (d : Byte)
  | zpy (d : Byte)
  | abs (a : Addr)
  | abx (a : Addr)
  | aby (a : Addr)
  | ind (a : Addr)
  | izx (d : Byte)
  | izy (d : Byte)
  deriving DecidableEq, Repr

/-- The length of an instruction with this operand: the opcode and one or two operand bytes (30_encoding.md R111, R120). -/
def MemOperand.length : MemOperand → Nat
  | .zp _ | .zpx _ | .zpy _ | .izx _ | .izy _ => 2
  | .abs _ | .abx _ | .aby _ | .ind _ => 3

/-- `xa`: the effective address is on another page than the un-indexed base (R158, R159, R162). -/
def pageCross (base ea : Addr) : Bool := hiByte ea != hiByte base

/-- The resolvers (R154 to R162): the effective address and `xa`. Only abx, aby and izy can signal a page cross (R167). -/
def resolve : MemOperand → State → Res (Addr × Bool)
  | .zp d, s => .ok (zext16 d, false) s
  | .zpx d, s => .ok (zext16 (d + s.x), false) s
  | .zpy d, s => .ok (zext16 (d + s.y), false) s
  | .abs a, s => .ok (a, false) s
  | .abx a, s => .ok (a + zext16 s.x, pageCross a (a + zext16 s.x)) s
  | .aby a, s => .ok (a + zext16 s.y, pageCross a (a + zext16 s.y)) s
  | .ind a, s => (readPtr a s).bind fun ea s => .ok (ea, false) s
  | .izx d, s => (readPtr (zext16 (d + s.x)) s).bind fun ea s => .ok (ea, false) s
  | .izy d, s => (readPtr (zext16 d) s).bind fun base s =>
      .ok (base + zext16 s.y, pageCross base (base + zext16 s.y)) s

/-- "add the table's base cycle count; advance PC by the instruction's byte length" (R141, R143). -/
def State.advance (base len : Nat) (s : State) : State := (s.addCycles base).setPC (s.pc + BitVec.ofNat 16 len)

/-- An instruction without an effective address: the handler runs after PC advanced. -/
def plain (base len : Nat) (h : State → Res Unit) (s : State) : Result := (h (s.advance base len)).toResult

/-- An instruction with an effective address: resolve, advance, run the handler, then add one cycle exactly when the page
cross `xa` and the handler's `xb` are both set (R141, R142). -/
def addressed (base : Nat) (xb : Bool) (m : MemOperand) (h : Addr → State → Res Unit) (s : State) : Result :=
  ((resolve m s).bind fun r s =>
   (h r.1 (s.advance base m.length)).bind fun _ s =>
   .ok () (s.addCycles (r.2 && xb).toNat)).toResult

/-- A one-byte instruction that touches registers only. -/
def implied (base : Nat) (f : State → State) (s : State) : Result := plain base 1 (fun s => .ok () (f s)) s

/-- A read instruction of mode imm: the operand is the byte itself (R153). -/
def readImm (d : Byte) (f : Byte → State → State) (s : State) : Result := plain 2 2 (fun s => .ok () (f d s)) s

/-- A read instruction of a memory mode: one bus read (`LoadOperand`, R164). -/
def readMem (base : Nat) (xb : Bool) (m : MemOperand) (f : Byte → State → State) (s : State) : Result :=
  addressed base xb m (fun ea s => (busRead ea s).bind fun v s => .ok () (f v s)) s

/-- A store: one bus write, the target is not read (R184). -/
def storeMem (base : Nat) (m : MemOperand) (v : Addr → State → Byte) (s : State) : Result :=
  addressed base false m (fun ea s => busWrite ea (v ea s) s) s

/-- A read-modify-write on the accumulator (R240 with `StoreResult` of mode acc, R165). -/
def rmwAcc (f : Byte → Byte → Byte × Byte) (s : State) : Result :=
  implied 2 (fun s => (s.setP (f s.a s.p).2).setA (f s.a s.p).1) s

/-- A read-modify-write on memory: one read, one write of the same address (R240). -/
def rmwMem (base : Nat) (m : MemOperand) (f : Byte → Byte → Byte × Byte) (s : State) : Result :=
  addressed base false m (fun ea s =>
    (busRead ea s).bind fun v s => busWrite ea (f v s.p).1 (s.setP (f v s.p).2)) s

/-- A read-modify-write followed by a second instruction on its result, without reading memory again (R320). -/
def rmwThen (base : Nat) (m : MemOperand) (f : Byte → Byte → Byte × Byte) (g : Byte → State → State) (s : State) : Result :=
  addressed base false m (fun ea s =>
    (busRead ea s).bind fun v s =>
    (busWrite ea (f v s.p).1 (s.setP (f v s.p).2)).bind fun _ t => .ok () (g (f v s.p).1 t)) s

/-- `Branch(cond)` after PC advanced (44_branch.md R260): one more cycle if taken, a second if the target is on another page
than the next instruction. -/
def branchBody (taken : Bool) (offset : Int) (s : State) : State :=
  if taken then
    let target := s.pc + sext16 offset
    (s.addCycles (1 + (pageCross s.pc target).toNat)).setPC target
  else s

/-- A branch instruction: base 2, length 2, condition of its mnemonic. -/
def branch (m : Mnemonic) (offset : Int) (s : State) : Result :=
  plain 2 2 (fun s => .ok () (branchBody (branchCond m s.p) offset s)) s

end Sys2Proof.Machine
end

