-- ==== Sys2Proof/Machine/Arithmetic.lean ====
section
/-! DEFINITION. ADC and SBC (spec 42_arithmetic.md R220 to R227): one meaning for each instruction,
with the base cycles and the sensitivity flag of its row of spec/opcode_table.json. -/

namespace Sys2Proof.Machine

/-- ADC: `AddWithCarry` (R220, R227). -/
def adcA (v : Byte) (s : State) : State := (s.setA (addWithCarry s.a v s.p).1).setP (addWithCarry s.a v s.p).2

/-- SBC: `SubWithBorrow` (R221, R227). -/
def sbcA (v : Byte) (s : State) : State := (s.setA (subWithBorrow s.a v s.p).1).setP (subWithBorrow s.a v s.p).2

/-! ## The meanings -/

/-- ADC izx ($61, R220). -/
def execAdcIndX (d : Byte) (s : State) : Result := readMem 6 true (.izx d) adcA s

/-- ADC zp ($65, R220). -/
def execAdcZp (d : Byte) (s : State) : Result := readMem 3 true (.zp d) adcA s

/-- ADC imm ($69, R220). -/
def execAdcImm (d : Byte) (s : State) : Result := readImm d adcA s

/-- ADC abs ($6D, R220). -/
def execAdcAbs (a : Addr) (s : State) : Result := readMem 4 true (.abs a) adcA s

/-- ADC izy ($71, R220). -/
def execAdcIndY (d : Byte) (s : State) : Result := readMem 5 true (.izy d) adcA s

/-- ADC zpx ($75, R220). -/
def execAdcZpX (d : Byte) (s : State) : Result := readMem 4 true (.zpx d) adcA s

/-- ADC aby ($79, R220). -/
def execAdcAbsY (a : Addr) (s : State) : Result := readMem 4 true (.aby a) adcA s

/-- ADC abx ($7D, R220). -/
def execAdcAbsX (a : Addr) (s : State) : Result := readMem 4 true (.abx a) adcA s

/-- SBC izx ($E1, R221). -/
def execSbcIndX (d : Byte) (s : State) : Result := readMem 6 true (.izx d) sbcA s

/-- SBC zp ($E5, R221). -/
def execSbcZp (d : Byte) (s : State) : Result := readMem 3 true (.zp d) sbcA s

/-- SBC imm ($E9, R221). -/
def execSbcImm (d : Byte) (s : State) : Result := readImm d sbcA s

/-- SBC abs ($ED, R221). -/
def execSbcAbs (a : Addr) (s : State) : Result := readMem 4 true (.abs a) sbcA s

/-- SBC izy ($F1, R221). -/
def execSbcIndY (d : Byte) (s : State) : Result := readMem 5 true (.izy d) sbcA s

/-- SBC zpx ($F5, R221). -/
def execSbcZpX (d : Byte) (s : State) : Result := readMem 4 true (.zpx d) sbcA s

/-- SBC aby ($F9, R221). -/
def execSbcAbsY (a : Addr) (s : State) : Result := readMem 4 true (.aby a) sbcA s

/-- SBC abx ($FD, R221). -/
def execSbcAbsX (a : Addr) (s : State) : Result := readMem 4 true (.abx a) sbcA s

end Sys2Proof.Machine
end

