-- ==== Sys2Proof/Machine/Branch.lean ====
section
/-! DEFINITION. Conditional branches (spec 44_branch.md R260 to R268); the shared handler is `branch`, the conditions `branchCond`: one meaning for each instruction,
with the base cycles and the sensitivity flag of its row of spec/opcode_table.json. -/

namespace Sys2Proof.Machine

/-! ## The meanings -/

/-- BCC rel ($90, R261). -/
def execBcc (offset : Int) (s : State) : Result := branch .bcc offset s

/-- BCS rel ($B0, R262). -/
def execBcs (offset : Int) (s : State) : Result := branch .bcs offset s

/-- BEQ rel ($F0, R263). -/
def execBeq (offset : Int) (s : State) : Result := branch .beq offset s

/-- BNE rel ($D0, R264). -/
def execBne (offset : Int) (s : State) : Result := branch .bne offset s

/-- BMI rel ($30, R265). -/
def execBmi (offset : Int) (s : State) : Result := branch .bmi offset s

/-- BPL rel ($10, R266). -/
def execBpl (offset : Int) (s : State) : Result := branch .bpl offset s

/-- BVC rel ($50, R267). -/
def execBvc (offset : Int) (s : State) : Result := branch .bvc offset s

/-- BVS rel ($70, R268). -/
def execBvs (offset : Int) (s : State) : Result := branch .bvs offset s

end Sys2Proof.Machine
end

