-- ==== Sys2Proof/Machine/LoadTransferLogical.lean ====
section
/-! DEFINITION. Load, store, transfer, logical and compare instructions (spec 41_load_transfer_logical.md R180 to R200): one meaning for each instruction,
with the base cycles and the sensitivity flag of its row of spec/opcode_table.json. -/

namespace Sys2Proof.Machine

/-! ## What each mnemonic does with its operand byte -/

/-- LDA (R181). -/
def loadA (v : Byte) (s : State) : State := (s.setA v).setP (setZN v s.p)

/-- LDX (R182). -/
def loadX (v : Byte) (s : State) : State := (s.setX v).setP (setZN v s.p)

/-- LDY (R183). -/
def loadY (v : Byte) (s : State) : State := (s.setY v).setP (setZN v s.p)

/-- AND (R193). -/
def andA (v : Byte) (s : State) : State := loadA (s.a &&& v) s

/-- ORA (R194). -/
def orA (v : Byte) (s : State) : State := loadA (s.a ||| v) s

/-- EOR (R195). -/
def eorA (v : Byte) (s : State) : State := loadA (s.a ^^^ v) s

/-- BIT (R196). -/
def bitA (v : Byte) (s : State) : State := s.setP (bitFlags s.a v s.p)

/-- CMP (R197). -/
def cmpA (v : Byte) (s : State) : State := s.setP (compareFlags s.a v s.p)

/-- CPX (R198). -/
def cmpX (v : Byte) (s : State) : State := s.setP (compareFlags s.x v s.p)

/-- CPY (R199). -/
def cmpY (v : Byte) (s : State) : State := s.setP (compareFlags s.y v s.p)

/-! ## Register transfers -/

/-- TAX (R187). -/
def taxReg (s : State) : State := loadX s.a s

/-- TAY (R188). -/
def tayReg (s : State) : State := loadY s.a s

/-- TXA (R189). -/
def txaReg (s : State) : State := loadA s.x s

/-- TYA (R190). -/
def tyaReg (s : State) : State := loadA s.y s

/-- TSX (R191). -/
def tsxReg (s : State) : State := loadX s.sp s

/-- TXS (R192): the one transfer that leaves Z and N unchanged. -/
def txsReg (s : State) : State := s.setSP s.x

/-! ## The meanings -/

/-- LDA izx ($A1, R181). -/
def execLdaIndX (d : Byte) (s : State) : Result := readMem 6 true (.izx d) loadA s

/-- LDA zp ($A5, R181). -/
def execLdaZp (d : Byte) (s : State) : Result := readMem 3 true (.zp d) loadA s

/-- LDA imm ($A9, R181). -/
def execLdaImm (d : Byte) (s : State) : Result := readImm d loadA s

/-- LDA abs ($AD, R181). -/
def execLdaAbs (a : Addr) (s : State) : Result := readMem 4 true (.abs a) loadA s

/-- LDA izy ($B1, R181). -/
def execLdaIndY (d : Byte) (s : State) : Result := readMem 5 true (.izy d) loadA s

/-- LDA zpx ($B5, R181). -/
def execLdaZpX (d : Byte) (s : State) : Result := readMem 4 true (.zpx d) loadA s

/-- LDA aby ($B9, R181). -/
def execLdaAbsY (a : Addr) (s : State) : Result := readMem 4 true (.aby a) loadA s

/-- LDA abx ($BD, R181). -/
def execLdaAbsX (a : Addr) (s : State) : Result := readMem 4 true (.abx a) loadA s

/-- LDX imm ($A2, R182). -/
def execLdxImm (d : Byte) (s : State) : Result := readImm d loadX s

/-- LDX zp ($A6, R182). -/
def execLdxZp (d : Byte) (s : State) : Result := readMem 3 true (.zp d) loadX s

/-- LDX abs ($AE, R182). -/
def execLdxAbs (a : Addr) (s : State) : Result := readMem 4 true (.abs a) loadX s

/-- LDX zpy ($B6, R182). -/
def execLdxZpY (d : Byte) (s : State) : Result := readMem 4 true (.zpy d) loadX s

/-- LDX aby ($BE, R182). -/
def execLdxAbsY (a : Addr) (s : State) : Result := readMem 4 true (.aby a) loadX s

/-- LDY imm ($A0, R183). -/
def execLdyImm (d : Byte) (s : State) : Result := readImm d loadY s

/-- LDY zp ($A4, R183). -/
def execLdyZp (d : Byte) (s : State) : Result := readMem 3 true (.zp d) loadY s

/-- LDY abs ($AC, R183). -/
def execLdyAbs (a : Addr) (s : State) : Result := readMem 4 true (.abs a) loadY s

/-- LDY zpx ($B4, R183). -/
def execLdyZpX (d : Byte) (s : State) : Result := readMem 4 true (.zpx d) loadY s

/-- LDY abx ($BC, R183). -/
def execLdyAbsX (a : Addr) (s : State) : Result := readMem 4 true (.abx a) loadY s

/-- STA izx ($81, R184). -/
def execStaIndX (d : Byte) (s : State) : Result := storeMem 6 (.izx d) (fun _ s => s.a) s

/-- STA zp ($85, R184). -/
def execStaZp (d : Byte) (s : State) : Result := storeMem 3 (.zp d) (fun _ s => s.a) s

/-- STA abs ($8D, R184). -/
def execStaAbs (a : Addr) (s : State) : Result := storeMem 4 (.abs a) (fun _ s => s.a) s

/-- STA izy ($91, R184). -/
def execStaIndY (d : Byte) (s : State) : Result := storeMem 6 (.izy d) (fun _ s => s.a) s

/-- STA zpx ($95, R184). -/
def execStaZpX (d : Byte) (s : State) : Result := storeMem 4 (.zpx d) (fun _ s => s.a) s

/-- STA aby ($99, R184). -/
def execStaAbsY (a : Addr) (s : State) : Result := storeMem 5 (.aby a) (fun _ s => s.a) s

/-- STA abx ($9D, R184). -/
def execStaAbsX (a : Addr) (s : State) : Result := storeMem 5 (.abx a) (fun _ s => s.a) s

/-- STX zp ($86, R185). -/
def execStxZp (d : Byte) (s : State) : Result := storeMem 3 (.zp d) (fun _ s => s.x) s

/-- STX abs ($8E, R185). -/
def execStxAbs (a : Addr) (s : State) : Result := storeMem 4 (.abs a) (fun _ s => s.x) s

/-- STX zpy ($96, R185). -/
def execStxZpY (d : Byte) (s : State) : Result := storeMem 4 (.zpy d) (fun _ s => s.x) s

/-- STY zp ($84, R186). -/
def execStyZp (d : Byte) (s : State) : Result := storeMem 3 (.zp d) (fun _ s => s.y) s

/-- STY abs ($8C, R186). -/
def execStyAbs (a : Addr) (s : State) : Result := storeMem 4 (.abs a) (fun _ s => s.y) s

/-- STY zpx ($94, R186). -/
def execStyZpX (d : Byte) (s : State) : Result := storeMem 4 (.zpx d) (fun _ s => s.y) s

/-- TAX imp ($AA, R187). -/
def execTax (s : State) : Result := implied 2 taxReg s

/-- TAY imp ($A8, R188). -/
def execTay (s : State) : Result := implied 2 tayReg s

/-- TXA imp ($8A, R189). -/
def execTxa (s : State) : Result := implied 2 txaReg s

/-- TYA imp ($98, R190). -/
def execTya (s : State) : Result := implied 2 tyaReg s

/-- TSX imp ($BA, R191). -/
def execTsx (s : State) : Result := implied 2 tsxReg s

/-- TXS imp ($9A, R192). -/
def execTxs (s : State) : Result := implied 2 txsReg s

/-- AND izx ($21, R193). -/
def execAndIndX (d : Byte) (s : State) : Result := readMem 6 true (.izx d) andA s

/-- AND zp ($25, R193). -/
def execAndZp (d : Byte) (s : State) : Result := readMem 3 true (.zp d) andA s

/-- AND imm ($29, R193). -/
def execAndImm (d : Byte) (s : State) : Result := readImm d andA s

/-- AND abs ($2D, R193). -/
def execAndAbs (a : Addr) (s : State) : Result := readMem 4 true (.abs a) andA s

/-- AND izy ($31, R193). -/
def execAndIndY (d : Byte) (s : State) : Result := readMem 5 true (.izy d) andA s

/-- AND zpx ($35, R193). -/
def execAndZpX (d : Byte) (s : State) : Result := readMem 4 true (.zpx d) andA s

/-- AND aby ($39, R193). -/
def execAndAbsY (a : Addr) (s : State) : Result := readMem 4 true (.aby a) andA s

/-- AND abx ($3D, R193). -/
def execAndAbsX (a : Addr) (s : State) : Result := readMem 4 true (.abx a) andA s

/-- ORA izx ($01, R194). -/
def execOraIndX (d : Byte) (s : State) : Result := readMem 6 true (.izx d) orA s

/-- ORA zp ($05, R194). -/
def execOraZp (d : Byte) (s : State) : Result := readMem 3 true (.zp d) orA s

/-- ORA imm ($09, R194). -/
def execOraImm (d : Byte) (s : State) : Result := readImm d orA s

/-- ORA abs ($0D, R194). -/
def execOraAbs (a : Addr) (s : State) : Result := readMem 4 true (.abs a) orA s

/-- ORA izy ($11, R194). -/
def execOraIndY (d : Byte) (s : State) : Result := readMem 5 true (.izy d) orA s

/-- ORA zpx ($15, R194). -/
def execOraZpX (d : Byte) (s : State) : Result := readMem 4 true (.zpx d) orA s

/-- ORA aby ($19, R194). -/
def execOraAbsY (a : Addr) (s : State) : Result := readMem 4 true (.aby a) orA s

/-- ORA abx ($1D, R194). -/
def execOraAbsX (a : Addr) (s : State) : Result := readMem 4 true (.abx a) orA s

/-- EOR izx ($41, R195). -/
def execEorIndX (d : Byte) (s : State) : Result := readMem 6 true (.izx d) eorA s

/-- EOR zp ($45, R195). -/
def execEorZp (d : Byte) (s : State) : Result := readMem 3 true (.zp d) eorA s

/-- EOR imm ($49, R195). -/
def execEorImm (d : Byte) (s : State) : Result := readImm d eorA s

/-- EOR abs ($4D, R195). -/
def execEorAbs (a : Addr) (s : State) : Result := readMem 4 true (.abs a) eorA s

/-- EOR izy ($51, R195). -/
def execEorIndY (d : Byte) (s : State) : Result := readMem 5 true (.izy d) eorA s

/-- EOR zpx ($55, R195). -/
def execEorZpX (d : Byte) (s : State) : Result := readMem 4 true (.zpx d) eorA s

/-- EOR aby ($59, R195). -/
def execEorAbsY (a : Addr) (s : State) : Result := readMem 4 true (.aby a) eorA s

/-- EOR abx ($5D, R195). -/
def execEorAbsX (a : Addr) (s : State) : Result := readMem 4 true (.abx a) eorA s

/-- BIT zp ($24, R196). -/
def execBitZp (d : Byte) (s : State) : Result := readMem 3 false (.zp d) bitA s

/-- BIT abs ($2C, R196). -/
def execBitAbs (a : Addr) (s : State) : Result := readMem 4 false (.abs a) bitA s

/-- CMP izx ($C1, R197). -/
def execCmpIndX (d : Byte) (s : State) : Result := readMem 6 true (.izx d) cmpA s

/-- CMP zp ($C5, R197). -/
def execCmpZp (d : Byte) (s : State) : Result := readMem 3 true (.zp d) cmpA s

/-- CMP imm ($C9, R197). -/
def execCmpImm (d : Byte) (s : State) : Result := readImm d cmpA s

/-- CMP abs ($CD, R197). -/
def execCmpAbs (a : Addr) (s : State) : Result := readMem 4 true (.abs a) cmpA s

/-- CMP izy ($D1, R197). -/
def execCmpIndY (d : Byte) (s : State) : Result := readMem 5 true (.izy d) cmpA s

/-- CMP zpx ($D5, R197). -/
def execCmpZpX (d : Byte) (s : State) : Result := readMem 4 true (.zpx d) cmpA s

/-- CMP aby ($D9, R197). -/
def execCmpAbsY (a : Addr) (s : State) : Result := readMem 4 true (.aby a) cmpA s

/-- CMP abx ($DD, R197). -/
def execCmpAbsX (a : Addr) (s : State) : Result := readMem 4 true (.abx a) cmpA s

/-- CPX imm ($E0, R198). -/
def execCpxImm (d : Byte) (s : State) : Result := readImm d cmpX s

/-- CPX zp ($E4, R198). -/
def execCpxZp (d : Byte) (s : State) : Result := readMem 3 false (.zp d) cmpX s

/-- CPX abs ($EC, R198). -/
def execCpxAbs (a : Addr) (s : State) : Result := readMem 4 false (.abs a) cmpX s

/-- CPY imm ($C0, R199). -/
def execCpyImm (d : Byte) (s : State) : Result := readImm d cmpY s

/-- CPY zp ($C4, R199). -/
def execCpyZp (d : Byte) (s : State) : Result := readMem 3 false (.zp d) cmpY s

/-- CPY abs ($CC, R199). -/
def execCpyAbs (a : Addr) (s : State) : Result := readMem 4 false (.abs a) cmpY s

end Sys2Proof.Machine
end

