-- ==== Sys2Proof/Machine/ShiftRmw.lean ====
section
/-! DEFINITION. Shifts, rotates, increments and decrements (spec 43_shift_rmw.md R240 to R250): one meaning for each instruction,
with the base cycles and the sensitivity flag of its row of spec/opcode_table.json. -/

namespace Sys2Proof.Machine

/-- INX (R247). -/
def inxReg (s : State) : State := loadX (s.x + 1) s

/-- INY (R248). -/
def inyReg (s : State) : State := loadY (s.y + 1) s

/-- DEX (R249). -/
def dexReg (s : State) : State := loadX (s.x - 1) s

/-- DEY (R250). -/
def deyReg (s : State) : State := loadY (s.y - 1) s

/-! ## The meanings -/

/-- ASL zp ($06, R241). -/
def execAslZp (d : Byte) (s : State) : Result := rmwMem 5 (.zp d) aslByte s

/-- ASL acc ($0A, R241). -/
def execAslAcc (s : State) : Result := rmwAcc aslByte s

/-- ASL abs ($0E, R241). -/
def execAslAbs (a : Addr) (s : State) : Result := rmwMem 6 (.abs a) aslByte s

/-- ASL zpx ($16, R241). -/
def execAslZpX (d : Byte) (s : State) : Result := rmwMem 6 (.zpx d) aslByte s

/-- ASL abx ($1E, R241). -/
def execAslAbsX (a : Addr) (s : State) : Result := rmwMem 7 (.abx a) aslByte s

/-- LSR zp ($46, R242). -/
def execLsrZp (d : Byte) (s : State) : Result := rmwMem 5 (.zp d) lsrByte s

/-- LSR acc ($4A, R242). -/
def execLsrAcc (s : State) : Result := rmwAcc lsrByte s

/-- LSR abs ($4E, R242). -/
def execLsrAbs (a : Addr) (s : State) : Result := rmwMem 6 (.abs a) lsrByte s

/-- LSR zpx ($56, R242). -/
def execLsrZpX (d : Byte) (s : State) : Result := rmwMem 6 (.zpx d) lsrByte s

/-- LSR abx ($5E, R242). -/
def execLsrAbsX (a : Addr) (s : State) : Result := rmwMem 7 (.abx a) lsrByte s

/-- ROL zp ($26, R243). -/
def execRolZp (d : Byte) (s : State) : Result := rmwMem 5 (.zp d) rolByte s

/-- ROL acc ($2A, R243). -/
def execRolAcc (s : State) : Result := rmwAcc rolByte s

/-- ROL abs ($2E, R243). -/
def execRolAbs (a : Addr) (s : State) : Result := rmwMem 6 (.abs a) rolByte s

/-- ROL zpx ($36, R243). -/
def execRolZpX (d : Byte) (s : State) : Result := rmwMem 6 (.zpx d) rolByte s

/-- ROL abx ($3E, R243). -/
def execRolAbsX (a : Addr) (s : State) : Result := rmwMem 7 (.abx a) rolByte s

/-- ROR zp ($66, R244). -/
def execRorZp (d : Byte) (s : State) : Result := rmwMem 5 (.zp d) rorByte s

/-- ROR acc ($6A, R244). -/
def execRorAcc (s : State) : Result := rmwAcc rorByte s

/-- ROR abs ($6E, R244). -/
def execRorAbs (a : Addr) (s : State) : Result := rmwMem 6 (.abs a) rorByte s

/-- ROR zpx ($76, R244). -/
def execRorZpX (d : Byte) (s : State) : Result := rmwMem 6 (.zpx d) rorByte s

/-- ROR abx ($7E, R244). -/
def execRorAbsX (a : Addr) (s : State) : Result := rmwMem 7 (.abx a) rorByte s

/-- INC zp ($E6, R245). -/
def execIncZp (d : Byte) (s : State) : Result := rmwMem 5 (.zp d) incByte s

/-- INC abs ($EE, R245). -/
def execIncAbs (a : Addr) (s : State) : Result := rmwMem 6 (.abs a) incByte s

/-- INC zpx ($F6, R245). -/
def execIncZpX (d : Byte) (s : State) : Result := rmwMem 6 (.zpx d) incByte s

/-- INC abx ($FE, R245). -/
def execIncAbsX (a : Addr) (s : State) : Result := rmwMem 7 (.abx a) incByte s

/-- DEC zp ($C6, R246). -/
def execDecZp (d : Byte) (s : State) : Result := rmwMem 5 (.zp d) decByte s

/-- DEC abs ($CE, R246). -/
def execDecAbs (a : Addr) (s : State) : Result := rmwMem 6 (.abs a) decByte s

/-- DEC zpx ($D6, R246). -/
def execDecZpX (d : Byte) (s : State) : Result := rmwMem 6 (.zpx d) decByte s

/-- DEC abx ($DE, R246). -/
def execDecAbsX (a : Addr) (s : State) : Result := rmwMem 7 (.abx a) decByte s

/-- INX imp ($E8, R247). -/
def execInx (s : State) : Result := implied 2 inxReg s

/-- INY imp ($C8, R248). -/
def execIny (s : State) : Result := implied 2 inyReg s

/-- DEX imp ($CA, R249). -/
def execDex (s : State) : Result := implied 2 dexReg s

/-- DEY imp ($88, R250). -/
def execDey (s : State) : Result := implied 2 deyReg s

end Sys2Proof.Machine
end

