-- ==== Sys2Proof/Machine/StackControl.lean ====
section
/-! DEFINITION. Jumps, subroutines, BRK, RTI, stack, flag instructions and NOP (spec 45_stack_control.md R280 to R296): one meaning for each instruction,
with the base cycles and the sensitivity flag of its row of spec/opcode_table.json. -/

namespace Sys2Proof.Machine

/-- JMP (R282): the target is not read. -/
def jumpTo (ea : Addr) (s : State) : Res Unit := .ok () (s.setPC ea)

/-- JSR (R280): pushes the address of its last byte, high byte first. -/
def callTo (ea : Addr) (s : State) : Res Unit :=
  (pushAddr (s.pc - 1) s).bind fun _ s => .ok () (s.setPC ea)

/-- RTS (R281). -/
def returnFromCall (s : State) : Res Unit := (popAddr s).bind fun ret s => .ok () (s.setPC (ret + 1))

/-- PHA (R285). -/
def pushA (s : State) : Res Unit := push s.a s

/-- PHP (R286). -/
def pushP (s : State) : Res Unit := push (pushedByInstruction s.p) s

/-- PLA (R287). -/
def pullA (s : State) : Res Unit := (pop s).bind fun v s => .ok () (loadA v s)

/-- PLP (R288). -/
def pullP (s : State) : Res Unit := (pop s).bind fun v s => .ok () (s.setP (statusOfPopped v))

/-- The flag instructions (R289 to R295). -/
def setFlag (f : Flag) (on : Bool) (s : State) : State := s.setP (putFlag f on s.p)

/-! ## The meanings -/

/-- JMP abs ($4C, R282). -/
def execJmpAbs (a : Addr) (s : State) : Result := addressed 3 false (.abs a) jumpTo s

/-- JMP ind ($6C, R282). -/
def execJmpInd (a : Addr) (s : State) : Result := addressed 5 false (.ind a) jumpTo s

/-- JSR abs ($20, R280). -/
def execJsrAbs (a : Addr) (s : State) : Result := addressed 6 false (.abs a) callTo s

/-- RTS imp ($60, R281). -/
def execRts (s : State) : Result := plain 6 1 returnFromCall s

/-- BRK imp ($00, R283). -/
def execBrk (_pad : Byte) (s : State) : Result := plain 7 2 (interruptEntry irqVector true) s

/-- RTI imp ($40, R284). -/
def execRti (s : State) : Result := plain 6 1 interruptReturn s

/-- PHA imp ($48, R285). -/
def execPha (s : State) : Result := plain 3 1 pushA s

/-- PHP imp ($08, R286). -/
def execPhp (s : State) : Result := plain 3 1 pushP s

/-- PLA imp ($68, R287). -/
def execPla (s : State) : Result := plain 4 1 pullA s

/-- PLP imp ($28, R288). -/
def execPlp (s : State) : Result := plain 4 1 pullP s

/-- CLC imp ($18, R289). -/
def execClc (s : State) : Result := implied 2 (setFlag .c false) s

/-- SEC imp ($38, R290). -/
def execSec (s : State) : Result := implied 2 (setFlag .c true) s

/-- CLI imp ($58, R291). -/
def execCli (s : State) : Result := implied 2 (setFlag .i false) s

/-- SEI imp ($78, R292). -/
def execSei (s : State) : Result := implied 2 (setFlag .i true) s

/-- CLV imp ($B8, R293). -/
def execClv (s : State) : Result := implied 2 (setFlag .v false) s

/-- CLD imp ($D8, R294). -/
def execCld (s : State) : Result := implied 2 (setFlag .d false) s

/-- SED imp ($F8, R295). -/
def execSed (s : State) : Result := implied 2 (setFlag .d true) s

/-- NOP imp ($EA, R296). -/
def execNop (s : State) : Result := implied 2 (fun s => s) s

end Sys2Proof.Machine
end

