-- ==== Sys2Proof/Machine/Undocumented.lean ====
section
/-! DEFINITION. The undocumented opcodes and KIL (spec 46_undocumented.md R320 to R345): one meaning for each instruction,
with the base cycles and the sensitivity flag of its row of spec/opcode_table.json. -/

namespace Sys2Proof.Machine

/-! ## Tier 1: combinations. SLO, RLA, SRE, RRA, DCP and ISC are `rmwThen` of their two halves (R320). -/

/-- LAX: LDA then TAX (R326). -/
def loadAX (v : Byte) (s : State) : State := ((s.setA v).setX v).setP (setZN v s.p)

/-- An undocumented NOP with an operand: the operand is read and discarded (R339). -/
def ignore (_ : Byte) (s : State) : State := s

/-! ## Tier 2 -/

/-- ANC (R329). -/
def ancA (v : Byte) (s : State) : State := (s.setA (ancByte s.a v s.p).1).setP (ancByte s.a v s.p).2

/-- ALR (R330). -/
def alrA (v : Byte) (s : State) : State := (s.setA (alrByte s.a v s.p).1).setP (alrByte s.a v s.p).2

/-- ARR (R331). -/
def arrA (v : Byte) (s : State) : State := (s.setA (arrByte s.a v s.p).1).setP (arrByte s.a v s.p).2

/-- AXS (R333): a compare of A AND X with the operand whose difference is kept in X. -/
def axsX (v : Byte) (s : State) : State :=
  (s.setX ((s.a &&& s.x) - v)).setP (compareFlags (s.a &&& s.x) v s.p)

/-- LAS (R338). -/
def loadLas (v : Byte) (s : State) : State :=
  (((s.setA (v &&& s.sp)).setX (v &&& s.sp)).setSP (v &&& s.sp)).setP (setZN (v &&& s.sp) s.p)

/-! ## Tier 3: unstable on silicon; the rules' formulas, with the MAGIC constants uninterpreted (log 10, log 11) -/

/-- XAA (R332). -/
def xaaA (v : Byte) (s : State) : State := loadA ((s.a ||| Config.xaaMagic) &&& s.x &&& v) s

/-- LAX immediate (R341). -/
def laxImmAX (v : Byte) (s : State) : State := loadAX ((s.a ||| Config.laxMagic) &&& v) s

/-- `H1`: one more than the high byte of the un-indexed base address (R334 to R337). -/
def baseHighPlusOne (ea : Addr) (index : Byte) : Byte := hiByte (ea - zext16 index) + 1

/-- The byte AHX stores (R334). -/
def ahxByte (ea : Addr) (s : State) : Byte := s.a &&& s.x &&& baseHighPlusOne ea s.y

/-- The byte SHY stores (R335). -/
def shyByte (ea : Addr) (s : State) : Byte := s.y &&& baseHighPlusOne ea s.x

/-- The byte SHX stores (R336). -/
def shxByte (ea : Addr) (s : State) : Byte := s.x &&& baseHighPlusOne ea s.y

/-- TAS (R337): SP from A AND X, then the store. -/
def storeTas (ea : Addr) (s : State) : Res Unit :=
  busWrite ea (s.a &&& s.x &&& baseHighPlusOne ea s.y) (s.setSP (s.a &&& s.x))

/-! ## The meanings -/

/-- SLO izx ($03, R321). -/
def execSloIndX (d : Byte) (s : State) : Result := rmwThen 8 (.izx d) aslByte orA s

/-- SLO zp ($07, R321). -/
def execSloZp (d : Byte) (s : State) : Result := rmwThen 5 (.zp d) aslByte orA s

/-- SLO abs ($0F, R321). -/
def execSloAbs (a : Addr) (s : State) : Result := rmwThen 6 (.abs a) aslByte orA s

/-- SLO izy ($13, R321). -/
def execSloIndY (d : Byte) (s : State) : Result := rmwThen 8 (.izy d) aslByte orA s

/-- SLO zpx ($17, R321). -/
def execSloZpX (d : Byte) (s : State) : Result := rmwThen 6 (.zpx d) aslByte orA s

/-- SLO aby ($1B, R321). -/
def execSloAbsY (a : Addr) (s : State) : Result := rmwThen 7 (.aby a) aslByte orA s

/-- SLO abx ($1F, R321). -/
def execSloAbsX (a : Addr) (s : State) : Result := rmwThen 7 (.abx a) aslByte orA s

/-- RLA izx ($23, R322). -/
def execRlaIndX (d : Byte) (s : State) : Result := rmwThen 8 (.izx d) rolByte andA s

/-- RLA zp ($27, R322). -/
def execRlaZp (d : Byte) (s : State) : Result := rmwThen 5 (.zp d) rolByte andA s

/-- RLA abs ($2F, R322). -/
def execRlaAbs (a : Addr) (s : State) : Result := rmwThen 6 (.abs a) rolByte andA s

/-- RLA izy ($33, R322). -/
def execRlaIndY (d : Byte) (s : State) : Result := rmwThen 8 (.izy d) rolByte andA s

/-- RLA zpx ($37, R322). -/
def execRlaZpX (d : Byte) (s : State) : Result := rmwThen 6 (.zpx d) rolByte andA s

/-- RLA aby ($3B, R322). -/
def execRlaAbsY (a : Addr) (s : State) : Result := rmwThen 7 (.aby a) rolByte andA s

/-- RLA abx ($3F, R322). -/
def execRlaAbsX (a : Addr) (s : State) : Result := rmwThen 7 (.abx a) rolByte andA s

/-- SRE izx ($43, R323). -/
def execSreIndX (d : Byte) (s : State) : Result := rmwThen 8 (.izx d) lsrByte eorA s

/-- SRE zp ($47, R323). -/
def execSreZp (d : Byte) (s : State) : Result := rmwThen 5 (.zp d) lsrByte eorA s

/-- SRE abs ($4F, R323). -/
def execSreAbs (a : Addr) (s : State) : Result := rmwThen 6 (.abs a) lsrByte eorA s

/-- SRE izy ($53, R323). -/
def execSreIndY (d : Byte) (s : State) : Result := rmwThen 8 (.izy d) lsrByte eorA s

/-- SRE zpx ($57, R323). -/
def execSreZpX (d : Byte) (s : State) : Result := rmwThen 6 (.zpx d) lsrByte eorA s

/-- SRE aby ($5B, R323). -/
def execSreAbsY (a : Addr) (s : State) : Result := rmwThen 7 (.aby a) lsrByte eorA s

/-- SRE abx ($5F, R323). -/
def execSreAbsX (a : Addr) (s : State) : Result := rmwThen 7 (.abx a) lsrByte eorA s

/-- RRA izx ($63, R324). -/
def execRraIndX (d : Byte) (s : State) : Result := rmwThen 8 (.izx d) rorByte adcA s

/-- RRA zp ($67, R324). -/
def execRraZp (d : Byte) (s : State) : Result := rmwThen 5 (.zp d) rorByte adcA s

/-- RRA abs ($6F, R324). -/
def execRraAbs (a : Addr) (s : State) : Result := rmwThen 6 (.abs a) rorByte adcA s

/-- RRA izy ($73, R324). -/
def execRraIndY (d : Byte) (s : State) : Result := rmwThen 8 (.izy d) rorByte adcA s

/-- RRA zpx ($77, R324). -/
def execRraZpX (d : Byte) (s : State) : Result := rmwThen 6 (.zpx d) rorByte adcA s

/-- RRA aby ($7B, R324). -/
def execRraAbsY (a : Addr) (s : State) : Result := rmwThen 7 (.aby a) rorByte adcA s

/-- RRA abx ($7F, R324). -/
def execRraAbsX (a : Addr) (s : State) : Result := rmwThen 7 (.abx a) rorByte adcA s

/-- SAX izx ($83, R325). -/
def execSaxIndX (d : Byte) (s : State) : Result := storeMem 6 (.izx d) (fun _ s => s.a &&& s.x) s

/-- SAX zp ($87, R325). -/
def execSaxZp (d : Byte) (s : State) : Result := storeMem 3 (.zp d) (fun _ s => s.a &&& s.x) s

/-- SAX abs ($8F, R325). -/
def execSaxAbs (a : Addr) (s : State) : Result := storeMem 4 (.abs a) (fun _ s => s.a &&& s.x) s

/-- SAX zpy ($97, R325). -/
def execSaxZpY (d : Byte) (s : State) : Result := storeMem 4 (.zpy d) (fun _ s => s.a &&& s.x) s

/-- LAX izx ($A3, R326). -/
def execLaxIndX (d : Byte) (s : State) : Result := readMem 6 true (.izx d) loadAX s

/-- LAX zp ($A7, R326). -/
def execLaxZp (d : Byte) (s : State) : Result := readMem 3 true (.zp d) loadAX s

/-- LAX abs ($AF, R326). -/
def execLaxAbs (a : Addr) (s : State) : Result := readMem 4 true (.abs a) loadAX s

/-- LAX izy ($B3, R326). -/
def execLaxIndY (d : Byte) (s : State) : Result := readMem 5 true (.izy d) loadAX s

/-- LAX zpy ($B7, R326). -/
def execLaxZpY (d : Byte) (s : State) : Result := readMem 4 true (.zpy d) loadAX s

/-- LAX aby ($BF, R326). -/
def execLaxAbsY (a : Addr) (s : State) : Result := readMem 4 true (.aby a) loadAX s

/-- LAX imm ($AB, R341). -/
def execLaxImm (d : Byte) (s : State) : Result := readImm d laxImmAX s

/-- DCP izx ($C3, R327). -/
def execDcpIndX (d : Byte) (s : State) : Result := rmwThen 8 (.izx d) decByte cmpA s

/-- DCP zp ($C7, R327). -/
def execDcpZp (d : Byte) (s : State) : Result := rmwThen 5 (.zp d) decByte cmpA s

/-- DCP abs ($CF, R327). -/
def execDcpAbs (a : Addr) (s : State) : Result := rmwThen 6 (.abs a) decByte cmpA s

/-- DCP izy ($D3, R327). -/
def execDcpIndY (d : Byte) (s : State) : Result := rmwThen 8 (.izy d) decByte cmpA s

/-- DCP zpx ($D7, R327). -/
def execDcpZpX (d : Byte) (s : State) : Result := rmwThen 6 (.zpx d) decByte cmpA s

/-- DCP aby ($DB, R327). -/
def execDcpAbsY (a : Addr) (s : State) : Result := rmwThen 7 (.aby a) decByte cmpA s

/-- DCP abx ($DF, R327). -/
def execDcpAbsX (a : Addr) (s : State) : Result := rmwThen 7 (.abx a) decByte cmpA s

/-- ISC izx ($E3, R328). -/
def execIscIndX (d : Byte) (s : State) : Result := rmwThen 8 (.izx d) incByte sbcA s

/-- ISC zp ($E7, R328). -/
def execIscZp (d : Byte) (s : State) : Result := rmwThen 5 (.zp d) incByte sbcA s

/-- ISC abs ($EF, R328). -/
def execIscAbs (a : Addr) (s : State) : Result := rmwThen 6 (.abs a) incByte sbcA s

/-- ISC izy ($F3, R328). -/
def execIscIndY (d : Byte) (s : State) : Result := rmwThen 8 (.izy d) incByte sbcA s

/-- ISC zpx ($F7, R328). -/
def execIscZpX (d : Byte) (s : State) : Result := rmwThen 6 (.zpx d) incByte sbcA s

/-- ISC aby ($FB, R328). -/
def execIscAbsY (a : Addr) (s : State) : Result := rmwThen 7 (.aby a) incByte sbcA s

/-- ISC abx ($FF, R328). -/
def execIscAbsX (a : Addr) (s : State) : Result := rmwThen 7 (.abx a) incByte sbcA s

/-- ANC imm ($0B, R329). -/
def execAncImm0B (d : Byte) (s : State) : Result := readImm d ancA s

/-- ANC imm ($2B, R329). -/
def execAncImm2B (d : Byte) (s : State) : Result := readImm d ancA s

/-- ALR imm ($4B, R330). -/
def execAlrImm (d : Byte) (s : State) : Result := readImm d alrA s

/-- ARR imm ($6B, R331). -/
def execArrImm (d : Byte) (s : State) : Result := readImm d arrA s

/-- XAA imm ($8B, R332). -/
def execXaaImm (d : Byte) (s : State) : Result := readImm d xaaA s

/-- AXS imm ($CB, R333). -/
def execAxsImm (d : Byte) (s : State) : Result := readImm d axsX s

/-- AHX izy ($93, R334). -/
def execAhxIndY (d : Byte) (s : State) : Result := storeMem 6 (.izy d) ahxByte s

/-- AHX aby ($9F, R334). -/
def execAhxAbsY (a : Addr) (s : State) : Result := storeMem 5 (.aby a) ahxByte s

/-- SHY abx ($9C, R335). -/
def execShyAbsX (a : Addr) (s : State) : Result := storeMem 5 (.abx a) shyByte s

/-- SHX aby ($9E, R336). -/
def execShxAbsY (a : Addr) (s : State) : Result := storeMem 5 (.aby a) shxByte s

/-- TAS aby ($9B, R337). -/
def execTasAbsY (a : Addr) (s : State) : Result := addressed 5 false (.aby a) storeTas s

/-- LAS aby ($BB, R338). -/
def execLasAbsY (a : Addr) (s : State) : Result := readMem 4 true (.aby a) loadLas s

/-- KIL imp ($02 $12 $22 $32 $42 $52 $62 $72 $92 $B2 $D2 $F2, R345). -/
def execKil (_op : Byte) (s : State) : Result := implied 0 (fun s => s.setHalted true) s

/-- NOP zp ($04 $44 $64, R339). -/
def execNopZp (_op : Byte) (d : Byte) (s : State) : Result := readMem 3 true (.zp d) ignore s

/-- NOP abs ($0C, R339). -/
def execNopAbs (a : Addr) (s : State) : Result := readMem 4 true (.abs a) ignore s

/-- NOP zpx ($14 $34 $54 $74 $D4 $F4, R339). -/
def execNopZpX (_op : Byte) (d : Byte) (s : State) : Result := readMem 4 true (.zpx d) ignore s

/-- NOP imp ($1A $3A $5A $7A $DA $FA, R339). -/
def execNopImp (_op : Byte) (s : State) : Result := implied 2 (fun s => s) s

/-- NOP abx ($1C $3C $5C $7C $DC $FC, R339). -/
def execNopAbsX (_op : Byte) (a : Addr) (s : State) : Result := readMem 4 true (.abx a) ignore s

/-- NOP imm ($80 $82 $89 $C2 $E2, R339). -/
def execNopImm (_op : Byte) (d : Byte) (s : State) : Result := readImm d ignore s

/-- SBC imm ($EB, R340). -/
def execSbcImmEB (d : Byte) (s : State) : Result := readImm d sbcA s

end Sys2Proof.Machine
end

