-- ==== Sys2Proof/Machine/Dispatch.lean ====
section
/-! DEFINITION. One arm per instruction: which meaning runs it. -/

namespace Sys2Proof.Machine

def exec (i : Instr) (s : State) : Host.Outcome State Fault Refusal :=
  match i with
  | .brk pad => Sys2Proof.Machine.execBrk pad s
  | .oraIndX d => Sys2Proof.Machine.execOraIndX d s
  | .kil op => Sys2Proof.Machine.execKil op s
  | .sloIndX d => Sys2Proof.Machine.execSloIndX d s
  | .nopZp op d => Sys2Proof.Machine.execNopZp op d s
  | .oraZp d => Sys2Proof.Machine.execOraZp d s
  | .aslZp d => Sys2Proof.Machine.execAslZp d s
  | .sloZp d => Sys2Proof.Machine.execSloZp d s
  | .php => Sys2Proof.Machine.execPhp s
  | .oraImm d => Sys2Proof.Machine.execOraImm d s
  | .aslAcc => Sys2Proof.Machine.execAslAcc s
  | .ancImm0B d => Sys2Proof.Machine.execAncImm0B d s
  | .nopAbs a => Sys2Proof.Machine.execNopAbs a s
  | .oraAbs a => Sys2Proof.Machine.execOraAbs a s
  | .aslAbs a => Sys2Proof.Machine.execAslAbs a s
  | .sloAbs a => Sys2Proof.Machine.execSloAbs a s
  | .bpl offset => Sys2Proof.Machine.execBpl offset s
  | .oraIndY d => Sys2Proof.Machine.execOraIndY d s
  | .sloIndY d => Sys2Proof.Machine.execSloIndY d s
  | .nopZpX op d => Sys2Proof.Machine.execNopZpX op d s
  | .oraZpX d => Sys2Proof.Machine.execOraZpX d s
  | .aslZpX d => Sys2Proof.Machine.execAslZpX d s
  | .sloZpX d => Sys2Proof.Machine.execSloZpX d s
  | .clc => Sys2Proof.Machine.execClc s
  | .oraAbsY a => Sys2Proof.Machine.execOraAbsY a s
  | .nopImp op => Sys2Proof.Machine.execNopImp op s
  | .sloAbsY a => Sys2Proof.Machine.execSloAbsY a s
  | .nopAbsX op a => Sys2Proof.Machine.execNopAbsX op a s
  | .oraAbsX a => Sys2Proof.Machine.execOraAbsX a s
  | .aslAbsX a => Sys2Proof.Machine.execAslAbsX a s
  | .sloAbsX a => Sys2Proof.Machine.execSloAbsX a s
  | .jsrAbs a => Sys2Proof.Machine.execJsrAbs a s
  | .andIndX d => Sys2Proof.Machine.execAndIndX d s
  | .rlaIndX d => Sys2Proof.Machine.execRlaIndX d s
  | .bitZp d => Sys2Proof.Machine.execBitZp d s
  | .andZp d => Sys2Proof.Machine.execAndZp d s
  | .rolZp d => Sys2Proof.Machine.execRolZp d s
  | .rlaZp d => Sys2Proof.Machine.execRlaZp d s
  | .plp => Sys2Proof.Machine.execPlp s
  | .andImm d => Sys2Proof.Machine.execAndImm d s
  | .rolAcc => Sys2Proof.Machine.execRolAcc s
  | .ancImm2B d => Sys2Proof.Machine.execAncImm2B d s
  | .bitAbs a => Sys2Proof.Machine.execBitAbs a s
  | .andAbs a => Sys2Proof.Machine.execAndAbs a s
  | .rolAbs a => Sys2Proof.Machine.execRolAbs a s
  | .rlaAbs a => Sys2Proof.Machine.execRlaAbs a s
  | .bmi offset => Sys2Proof.Machine.execBmi offset s
  | .andIndY d => Sys2Proof.Machine.execAndIndY d s
  | .rlaIndY d => Sys2Proof.Machine.execRlaIndY d s
  | .andZpX d => Sys2Proof.Machine.execAndZpX d s
  | .rolZpX d => Sys2Proof.Machine.execRolZpX d s
  | .rlaZpX d => Sys2Proof.Machine.execRlaZpX d s
  | .sec => Sys2Proof.Machine.execSec s
  | .andAbsY a => Sys2Proof.Machine.execAndAbsY a s
  | .rlaAbsY a => Sys2Proof.Machine.execRlaAbsY a s
  | .andAbsX a => Sys2Proof.Machine.execAndAbsX a s
  | .rolAbsX a => Sys2Proof.Machine.execRolAbsX a s
  | .rlaAbsX a => Sys2Proof.Machine.execRlaAbsX a s
  | .rti => Sys2Proof.Machine.execRti s
  | .eorIndX d => Sys2Proof.Machine.execEorIndX d s
  | .sreIndX d => Sys2Proof.Machine.execSreIndX d s
  | .eorZp d => Sys2Proof.Machine.execEorZp d s
  | .lsrZp d => Sys2Proof.Machine.execLsrZp d s
  | .sreZp d => Sys2Proof.Machine.execSreZp d s
  | .pha => Sys2Proof.Machine.execPha s
  | .eorImm d => Sys2Proof.Machine.execEorImm d s
  | .lsrAcc => Sys2Proof.Machine.execLsrAcc s
  | .alrImm d => Sys2Proof.Machine.execAlrImm d s
  | .jmpAbs a => Sys2Proof.Machine.execJmpAbs a s
  | .eorAbs a => Sys2Proof.Machine.execEorAbs a s
  | .lsrAbs a => Sys2Proof.Machine.execLsrAbs a s
  | .sreAbs a => Sys2Proof.Machine.execSreAbs a s
  | .bvc offset => Sys2Proof.Machine.execBvc offset s
  | .eorIndY d => Sys2Proof.Machine.execEorIndY d s
  | .sreIndY d => Sys2Proof.Machine.execSreIndY d s
  | .eorZpX d => Sys2Proof.Machine.execEorZpX d s
  | .lsrZpX d => Sys2Proof.Machine.execLsrZpX d s
  | .sreZpX d => Sys2Proof.Machine.execSreZpX d s
  | .cli => Sys2Proof.Machine.execCli s
  | .eorAbsY a => Sys2Proof.Machine.execEorAbsY a s
  | .sreAbsY a => Sys2Proof.Machine.execSreAbsY a s
  | .eorAbsX a => Sys2Proof.Machine.execEorAbsX a s
  | .lsrAbsX a => Sys2Proof.Machine.execLsrAbsX a s
  | .sreAbsX a => Sys2Proof.Machine.execSreAbsX a s
  | .rts => Sys2Proof.Machine.execRts s
  | .adcIndX d => Sys2Proof.Machine.execAdcIndX d s
  | .rraIndX d => Sys2Proof.Machine.execRraIndX d s
  | .adcZp d => Sys2Proof.Machine.execAdcZp d s
  | .rorZp d => Sys2Proof.Machine.execRorZp d s
  | .rraZp d => Sys2Proof.Machine.execRraZp d s
  | .pla => Sys2Proof.Machine.execPla s
  | .adcImm d => Sys2Proof.Machine.execAdcImm d s
  | .rorAcc => Sys2Proof.Machine.execRorAcc s
  | .arrImm d => Sys2Proof.Machine.execArrImm d s
  | .jmpInd a => Sys2Proof.Machine.execJmpInd a s
  | .adcAbs a => Sys2Proof.Machine.execAdcAbs a s
  | .rorAbs a => Sys2Proof.Machine.execRorAbs a s
  | .rraAbs a => Sys2Proof.Machine.execRraAbs a s
  | .bvs offset => Sys2Proof.Machine.execBvs offset s
  | .adcIndY d => Sys2Proof.Machine.execAdcIndY d s
  | .rraIndY d => Sys2Proof.Machine.execRraIndY d s
  | .adcZpX d => Sys2Proof.Machine.execAdcZpX d s
  | .rorZpX d => Sys2Proof.Machine.execRorZpX d s
  | .rraZpX d => Sys2Proof.Machine.execRraZpX d s
  | .sei => Sys2Proof.Machine.execSei s
  | .adcAbsY a => Sys2Proof.Machine.execAdcAbsY a s
  | .rraAbsY a => Sys2Proof.Machine.execRraAbsY a s
  | .adcAbsX a => Sys2Proof.Machine.execAdcAbsX a s
  | .rorAbsX a => Sys2Proof.Machine.execRorAbsX a s
  | .rraAbsX a => Sys2Proof.Machine.execRraAbsX a s
  | .nopImm op d => Sys2Proof.Machine.execNopImm op d s
  | .staIndX d => Sys2Proof.Machine.execStaIndX d s
  | .saxIndX d => Sys2Proof.Machine.execSaxIndX d s
  | .styZp d => Sys2Proof.Machine.execStyZp d s
  | .staZp d => Sys2Proof.Machine.execStaZp d s
  | .stxZp d => Sys2Proof.Machine.execStxZp d s
  | .saxZp d => Sys2Proof.Machine.execSaxZp d s
  | .dey => Sys2Proof.Machine.execDey s
  | .txa => Sys2Proof.Machine.execTxa s
  | .xaaImm d => Sys2Proof.Machine.execXaaImm d s
  | .styAbs a => Sys2Proof.Machine.execStyAbs a s
  | .staAbs a => Sys2Proof.Machine.execStaAbs a s
  | .stxAbs a => Sys2Proof.Machine.execStxAbs a s
  | .saxAbs a => Sys2Proof.Machine.execSaxAbs a s
  | .bcc offset => Sys2Proof.Machine.execBcc offset s
  | .staIndY d => Sys2Proof.Machine.execStaIndY d s
  | .ahxIndY d => Sys2Proof.Machine.execAhxIndY d s
  | .styZpX d => Sys2Proof.Machine.execStyZpX d s
  | .staZpX d => Sys2Proof.Machine.execStaZpX d s
  | .stxZpY d => Sys2Proof.Machine.execStxZpY d s
  | .saxZpY d => Sys2Proof.Machine.execSaxZpY d s
  | .tya => Sys2Proof.Machine.execTya s
  | .staAbsY a => Sys2Proof.Machine.execStaAbsY a s
  | .txs => Sys2Proof.Machine.execTxs s
  | .tasAbsY a => Sys2Proof.Machine.execTasAbsY a s
  | .shyAbsX a => Sys2Proof.Machine.execShyAbsX a s
  | .staAbsX a => Sys2Proof.Machine.execStaAbsX a s
  | .shxAbsY a => Sys2Proof.Machine.execShxAbsY a s
  | .ahxAbsY a => Sys2Proof.Machine.execAhxAbsY a s
  | .ldyImm d => Sys2Proof.Machine.execLdyImm d s
  | .ldaIndX d => Sys2Proof.Machine.execLdaIndX d s
  | .ldxImm d => Sys2Proof.Machine.execLdxImm d s
  | .laxIndX d => Sys2Proof.Machine.execLaxIndX d s
  | .ldyZp d => Sys2Proof.Machine.execLdyZp d s
  | .ldaZp d => Sys2Proof.Machine.execLdaZp d s
  | .ldxZp d => Sys2Proof.Machine.execLdxZp d s
  | .laxZp d => Sys2Proof.Machine.execLaxZp d s
  | .tay => Sys2Proof.Machine.execTay s
  | .ldaImm d => Sys2Proof.Machine.execLdaImm d s
  | .tax => Sys2Proof.Machine.execTax s
  | .laxImm d => Sys2Proof.Machine.execLaxImm d s
  | .ldyAbs a => Sys2Proof.Machine.execLdyAbs a s
  | .ldaAbs a => Sys2Proof.Machine.execLdaAbs a s
  | .ldxAbs a => Sys2Proof.Machine.execLdxAbs a s
  | .laxAbs a => Sys2Proof.Machine.execLaxAbs a s
  | .bcs offset => Sys2Proof.Machine.execBcs offset s
  | .ldaIndY d => Sys2Proof.Machine.execLdaIndY d s
  | .laxIndY d => Sys2Proof.Machine.execLaxIndY d s
  | .ldyZpX d => Sys2Proof.Machine.execLdyZpX d s
  | .ldaZpX d => Sys2Proof.Machine.execLdaZpX d s
  | .ldxZpY d => Sys2Proof.Machine.execLdxZpY d s
  | .laxZpY d => Sys2Proof.Machine.execLaxZpY d s
  | .clv => Sys2Proof.Machine.execClv s
  | .ldaAbsY a => Sys2Proof.Machine.execLdaAbsY a s
  | .tsx => Sys2Proof.Machine.execTsx s
  | .lasAbsY a => Sys2Proof.Machine.execLasAbsY a s
  | .ldyAbsX a => Sys2Proof.Machine.execLdyAbsX a s
  | .ldaAbsX a => Sys2Proof.Machine.execLdaAbsX a s
  | .ldxAbsY a => Sys2Proof.Machine.execLdxAbsY a s
  | .laxAbsY a => Sys2Proof.Machine.execLaxAbsY a s
  | .cpyImm d => Sys2Proof.Machine.execCpyImm d s
  | .cmpIndX d => Sys2Proof.Machine.execCmpIndX d s
  | .dcpIndX d => Sys2Proof.Machine.execDcpIndX d s
  | .cpyZp d => Sys2Proof.Machine.execCpyZp d s
  | .cmpZp d => Sys2Proof.Machine.execCmpZp d s
  | .decZp d => Sys2Proof.Machine.execDecZp d s
  | .dcpZp d => Sys2Proof.Machine.execDcpZp d s
  | .iny => Sys2Proof.Machine.execIny s
  | .cmpImm d => Sys2Proof.Machine.execCmpImm d s
  | .dex => Sys2Proof.Machine.execDex s
  | .axsImm d => Sys2Proof.Machine.execAxsImm d s
  | .cpyAbs a => Sys2Proof.Machine.execCpyAbs a s
  | .cmpAbs a => Sys2Proof.Machine.execCmpAbs a s
  | .decAbs a => Sys2Proof.Machine.execDecAbs a s
  | .dcpAbs a => Sys2Proof.Machine.execDcpAbs a s
  | .bne offset => Sys2Proof.Machine.execBne offset s
  | .cmpIndY d => Sys2Proof.Machine.execCmpIndY d s
  | .dcpIndY d => Sys2Proof.Machine.execDcpIndY d s
  | .cmpZpX d => Sys2Proof.Machine.execCmpZpX d s
  | .decZpX d => Sys2Proof.Machine.execDecZpX d s
  | .dcpZpX d => Sys2Proof.Machine.execDcpZpX d s
  | .cld => Sys2Proof.Machine.execCld s
  | .cmpAbsY a => Sys2Proof.Machine.execCmpAbsY a s
  | .dcpAbsY a => Sys2Proof.Machine.execDcpAbsY a s
  | .cmpAbsX a => Sys2Proof.Machine.execCmpAbsX a s
  | .decAbsX a => Sys2Proof.Machine.execDecAbsX a s
  | .dcpAbsX a => Sys2Proof.Machine.execDcpAbsX a s
  | .cpxImm d => Sys2Proof.Machine.execCpxImm d s
  | .sbcIndX d => Sys2Proof.Machine.execSbcIndX d s
  | .iscIndX d => Sys2Proof.Machine.execIscIndX d s
  | .cpxZp d => Sys2Proof.Machine.execCpxZp d s
  | .sbcZp d => Sys2Proof.Machine.execSbcZp d s
  | .incZp d => Sys2Proof.Machine.execIncZp d s
  | .iscZp d => Sys2Proof.Machine.execIscZp d s
  | .inx => Sys2Proof.Machine.execInx s
  | .sbcImm d => Sys2Proof.Machine.execSbcImm d s
  | .nop => Sys2Proof.Machine.execNop s
  | .sbcImmEB d => Sys2Proof.Machine.execSbcImmEB d s
  | .cpxAbs a => Sys2Proof.Machine.execCpxAbs a s
  | .sbcAbs a => Sys2Proof.Machine.execSbcAbs a s
  | .incAbs a => Sys2Proof.Machine.execIncAbs a s
  | .iscAbs a => Sys2Proof.Machine.execIscAbs a s
  | .beq offset => Sys2Proof.Machine.execBeq offset s
  | .sbcIndY d => Sys2Proof.Machine.execSbcIndY d s
  | .iscIndY d => Sys2Proof.Machine.execIscIndY d s
  | .sbcZpX d => Sys2Proof.Machine.execSbcZpX d s
  | .incZpX d => Sys2Proof.Machine.execIncZpX d s
  | .iscZpX d => Sys2Proof.Machine.execIscZpX d s
  | .sed => Sys2Proof.Machine.execSed s
  | .sbcAbsY a => Sys2Proof.Machine.execSbcAbsY a s
  | .iscAbsY a => Sys2Proof.Machine.execIscAbsY a s
  | .sbcAbsX a => Sys2Proof.Machine.execSbcAbsX a s
  | .incAbsX a => Sys2Proof.Machine.execIncAbsX a s
  | .iscAbsX a => Sys2Proof.Machine.execIscAbsX a s

end Sys2Proof.Machine
end

