-- ==== Sys2Proof/Machine/Fetch.lean ====
section
/-! DEFINITION. Fetching an instruction's bytes through the bus (spec 40_step_and_addressing.md R141, 20_memory.md R99). -/

namespace Sys2Proof.Machine

/-- How many operand bytes the step reads after an opcode: none for imp and acc (so BRK's padding byte is never read, R124);
for a branch one, only if it is taken (R260); else the mode's bytes (R112). -/
def operandReads (e : Entry) (p : Byte) : Nat :=
  match e.mode with
  | .imp | .acc => 0
  | .rel => (branchCond e.mnemonic p).toNat
  | .imm | .zp | .zpx | .zpy | .izx | .izy => 1
  | .abs | .abx | .aby | .ind => 2

/-- Reads the operand bytes of the opcode at PC, in ascending order; a byte that is not read stands as 0x00 in the decoded
instruction, which then does not depend on it (log 8). -/
def fetchOperands (op : Byte) (s : State) : Res Instr :=
  match operandReads (entryOf op) s.p with
  | 0 => .ok (instrOf op 0 0) s
  | 1 => (busRead (s.pc + 1) s).bind fun l s => .ok (instrOf op l 0) s
  | _ =>
    (busRead (s.pc + 1) s).bind fun l s =>
    (busRead (s.pc + 2) s).bind fun h s =>
    .ok (instrOf op l h) s

/-- The instruction at PC: the opcode byte, then its operand bytes. -/
def fetch (s : State) : Res Instr := (busRead s.pc s).bind fun op s => fetchOperands op s

end Sys2Proof.Machine
end

