-- ==== Sys2Proof/Machine/Platform.lean ====
section
/-! DEFINITION. What the host does to the machine between steps, other than a step itself (spec
70_reset_and_hazards.md R410 to R426, 20_memory.md R72, R75, R76, R84, 60_exceptions.md R371, R372). -/

namespace Sys2Proof.Machine

/-! ## The bus and the devices -/

/-- Puts device `d` into `n` consecutive page slots from `page` on. -/
def fillSlots (d : Nat) (slots : Vector (Option Nat) 256) (page : Nat) : Nat → Vector (Option Nat) 256
  | 0 => slots
  | n + 1 => fillSlots d (slots.setIfInBounds page (some d)) (page + 1) n

/-- `map(device, start, end)` (R72): every page from that of `first` to that of `last`, whole pages; nothing when the first
page is above the last (R75). -/
def State.map (d : Nat) (first last : Addr) (s : State) : State :=
  s.setSlots (fillSlots d s.slots (hiByte first).toNat ((hiByte last).toNat + 1 - (hiByte first).toNat))

/-- Constructs a device; its number is the count of devices before it (R415 step 1; log 14). -/
def State.addDevice (dev : Device) (s : State) : State := s.setDevices (s.devices ++ [some dev])

/-- Releases device `d`: its slots behave as empty from then on (R76, R426). -/
def State.release (d : Nat) (s : State) : State := s.setDevices (s.devices.set d none)

/-- Stores a byte into device `d`'s buffer, as a loader outside the block does, read-only device or not; only a memory
device in range takes it (R415 step 3, R420; log 16). -/
def State.loadByte (d a : Nat) (v : Byte) (s : State) : State :=
  match s.devices[d]? with
  | some (some (.memory kind size cells)) =>
    if a < size then s.putDevice d (.memory kind size (Memory.write cells a v)) else s
  | _ => s

/-- Loads bytes at consecutive addresses of device `d`'s buffer. -/
def State.load (d a : Nat) : List Byte → State → State
  | [], s => s
  | v :: vs, s => State.load d (a + 1) vs (s.loadByte d a v)

/-- What "reset all" does to a device: it zero-fills a memory device with reset tracking and leaves other memory devices
alone (R84, R414); what another device does is a platform parameter (R80; log 13). -/
def Device.resetAll : Device → Device
  | .memory .tracked size _ => .memory .tracked size []
  | .memory .readOnly size cells => .memory .readOnly size cells
  | .memory .untracked size cells => .memory .untracked size cells
  | .foreign id w inner => .foreign id w (Config.deviceReset id inner)

/-- The registry's "reset all" (R84, R414): a host operation of its own, no part of CPU reset. -/
def State.resetAllDevices (s : State) : State := s.setDevices (s.devices.map (Option.map Device.resetAll))

/-! ## Interrupt requests (60_exceptions.md R371 to R373) -/

/-- `raiseIRQ()`: "NMI is never downgraded" (R371). -/
def State.raiseIrq (s : State) : State := if s.intr = .nmi then s else s.setIntr .irq

/-- `raiseNMI()`: unconditional (R372). -/
def State.raiseNmi (s : State) : State := s.setIntr .nmi

/-! ## Reset and direct access -/

/-- The values reset leaves unspecified (R411, R49): a draw under no law. Of `flags` only C, Z, D, B, V and N count. -/
structure ResetDraw where
  a      : Byte
  x      : Byte
  y      : Byte
  flags  : Byte
  cycles : Nat
  deriving DecidableEq, Repr

/-- The status register after reset: the draw with I and U set (R410). -/
def ResetDraw.status (w : ResetDraw) : Byte := putFlag .u true (putFlag .i true w.flags)

/-- The registers after reset but for PC. -/
def State.resetRegisters (w : ResetDraw) (s : State) : State :=
  { s with a := w.a, x := w.x, y := w.y, sp := 0xFD, p := w.status, intr := .none, halted := false, cycles := w.cycles }

/-- `reset()` (R410): two bus reads, no write; allowed between steps and while halted (R423). A warm reset that keeps old
values is the draw of those values (R411). -/
def State.cpuReset (w : ResetDraw) (s : State) : Res Unit :=
  (readWord resetVector (s.resetRegisters w)).bind fun target s => .ok () (s.setPC target)

/-- Right after construction: all slots empty and no device (10_state.md R44). The registers are the model's choice (log 23):
those a reset on the empty bus leaves, for every draw, so that PC is 0x0000, an empty slot reading as 0x00 (20_memory.md R73);
R412 gives registers only once the platform is mapped and reset. The host goes on to build the platform, and its first reset ends
construction. -/
def State.constructed (w : ResetDraw) : State where
  a := w.a
  x := w.x
  y := w.y
  sp := 0xFD
  p := w.status
  pc := 0x0000
  intr := .none
  halted := false
  cycles := w.cycles
  slots := Vector.replicate 256 none
  devices := []

/-! ## Placing an instruction for the next fetch (what the host's loader does, R415, R425) -/

/-- The number of a memory device that holds the byte at `a`, if one does. -/
def State.memoryServing (s : State) (a : Addr) : Option Nat :=
  match s.slotDevice (pageOf a) with
  | some (d, .memory _ size _) => if a.toNat < size then some d else none
  | _ => none

/-- Loads bytes at consecutive bus addresses into whatever memory device serves each; an address that none serves is left
as it is. -/
def State.placeBytes (a : Addr) : List Byte → State → State
  | [], s => s
  | v :: vs, s =>
    State.placeBytes (a + 1) vs (match s.memoryServing a with
      | some d => s.loadByte d a.toNat v
      | none => s)

/-- Every address of an instruction of three bytes at `a` is served by a memory device. -/
def State.servesThree (a : Addr) (s : State) : Bool :=
  (s.memoryServing a).isSome && (s.memoryServing (a + 1)).isSome && (s.memoryServing (a + 2)).isSome

/-- A fresh 64 KiB memory device mapped over the pages of the three bytes at `a`. -/
def State.mapFreshAt (a : Addr) (s : State) : State :=
  ((s.addDevice referenceRam).map s.devices.length a a).map s.devices.length (a + 2) (a + 2)

/-- The state in which the next step executes an instruction: not halted, and no interrupt that would be serviced first. -/
def State.readyToFetch (s : State) : State :=
  match nextEvent (s.setHalted false) with
  | .instruction => s.setHalted false
  | _ => (s.setHalted false).setIntr .none

/-- Places three bytes where the next step fetches its instruction. -/
def State.placeInstruction (bytes : List Byte) (s : State) : State :=
  let r := s.readyToFetch
  if r.servesThree r.pc then r.placeBytes r.pc bytes else (r.mapFreshAt r.pc).placeBytes r.pc bytes

end Sys2Proof.Machine
end

