-- ==== Sys2Proof/Machine/Step.lean ====
section
/-! DEFINITION. One step: an interrupt service or one whole instruction (spec 40_step_and_addressing.md R140 to R146). -/

namespace Sys2Proof.Machine

/-- An instruction step: fetch, then run (R141). -/
def runInstruction (s : State) : Host.Outcome State Fault Refusal :=
  match fetch s with
  | .ok i t => exec i t
  | .fault r => .fault r

/-- `step()` (R140): exactly one of four things; while halted there is no transition (R144; log 7). -/
def step (s : State) : Host.Outcome State Fault Refusal :=
  match nextEvent s with
  | .locked => .fault .halted
  | .nmi => (serviceInterrupt nmiVector s).toResult
  | .irq => (serviceInterrupt irqVector s).toResult
  | .instruction => runInstruction s

/-- The instruction of a table word, stored where the next step fetches (log 15). -/
def State.withFetchWord (s : State) (nbits w : Nat) : State := s.placeInstruction (tableWordBytes nbits w)

end Sys2Proof.Machine
end

