-- ==== Sys2Proof/Machine/HostRun.lean ====
section
/-! DEFINITION. The host's operations as data, and runs: finite sequences of them (spec 70_reset_and_hazards.md R420, R427). -/

namespace Sys2Proof.Machine

/-- A host operation; each happens between steps (R420). -/
inductive HostOp where
  | step
  | reset (w : ResetDraw)
  | raiseIrq
  | raiseNmi
  | map (d : Nat) (first last : Addr)
  | addDevice (dev : Device)
  | load (d a : Nat) (bytes : List Byte)
  | release (d : Nat)
  | resetAll
  | setPC (a : Addr)
  deriving DecidableEq, Repr

/-- A host's session with one core: the platform is still being built and no step exists, or the first reset has been
performed (R412; log 23). -/
inductive Session where
  | building (s : State)
  | running (s : State)
  deriving DecidableEq, Repr

/-- The core and its bus, in either phase. -/
def Session.state : Session → State
  | .building s => s
  | .running s => s

/-- A host operation that acts on the core or its bus between steps; the phase stays. -/
def Session.update (f : State → State) : Session → Session
  | .building s => .building (f s)
  | .running s => .running (f s)

/-- The host operation "construct" (R420): a fresh core and bus, all slots empty; the fresh core's registers, for every draw, are
the model's choice (log 23). -/
def Session.start (w : ResetDraw) : Session := .building (State.constructed w)

/-- What a host operation answers. -/
abbrev SessionResult := Host.Outcome Session Fault Refusal

/-- The session after a step or a reset: running. -/
def asRunning : Result → SessionResult
  | .next s => .next (.running s)
  | .fault r => .fault r
  | .refused r => .refused r

/-- The host's call of `step`: before the first reset no step exists (R412; log 23); on a halted core the call changes nothing
(R144, R424), so that a reset may follow, where the core's own `step` stops by name (log 7); else a step. -/
def hostStep : Session → SessionResult
  | .building _ => .fault .notReset
  | .running s => if s.halted then .next (.running s) else asRunning (step s)

/-- What a host operation does (R420 to R426). -/
def applyHost : HostOp → Session → SessionResult
  | .step, h => hostStep h
  | .reset w, h => asRunning (h.state.cpuReset w).toResult
  | .raiseIrq, h => .next (h.update State.raiseIrq)
  | .raiseNmi, h => .next (h.update State.raiseNmi)
  | .map d first last, h => .next (h.update (State.map d first last))
  | .addDevice dev, h => .next (h.update (State.addDevice dev))
  | .load d a bytes, h => .next (h.update (State.load d a bytes))
  | .release d, h => .next (h.update (State.release d))
  | .resetAll, h => .next (h.update State.resetAllDevices)
  | .setPC a, h => .next (h.update (State.setPC a))

/-- A run: the operations in order, to the first stop. -/
def runHost : List HostOp → Session → SessionResult
  | [], h => .next h
  | op :: ops, h =>
    match applyHost op h with
    | .next k => runHost ops k
    | .fault r => .fault r
    | .refused r => .refused r

end Sys2Proof.Machine
end

