-- ==== Sys2Proof/Safety.lean ====
section
/-! DEFINITION. What a run may rely on and how it may end, in the terms statements use. -/

namespace Sys2Proof.Machine

/-- The state invariant: P.U reads as 1 (10_state.md R37), and every memory device's buffer is in canonical form below its
size. -/
def State.Inv (s : State) : Prop := getFlag .u s.p = true ∧ s.memoryWf = true

/-- A page is covered: a memory device mapped there is larger than the page's highest address (20_memory.md R83). -/
def State.pageCovered (s : State) (page : Fin 256) : Bool :=
  match s.slotDevice page with
  | some (_, .memory _ size _) => decide ((page.val + 1) * 256 ≤ size)
  | _ => true

/-- The platform is well formed: every page is covered, so that no access is out of range (R83, R431 (c)). -/
abbrev State.Covered (s : State) : Prop := ∀ page : Fin 256, s.pageCovered page = true

/-- A memory device takes writes at this address: it is mapped there, has a write capability, and is large enough. -/
def State.writableAt (s : State) (a : Addr) : Bool :=
  match s.slotDevice (pageOf a) with
  | some (_, .memory kind size _) => decide (kind ≠ .readOnly) && decide (a.toNat < size)
  | _ => false

/-- A bus access at this address is in range of the device that serves it (R83). -/
def State.inRange (s : State) (a : Addr) : Bool :=
  match s.slotDevice (pageOf a) with
  | some (_, .memory _ size _) => decide (a.toNat < size)
  | _ => true

/-! ## What bus accesses do to the state -/

/-- From `s` to `t` there were bus reads only: no register, latch, counter or page slot changed, and no byte of memory. (A
device that is no memory device may have changed its own state.) -/
def State.ReadsTo (s t : State) : Prop :=
  t = { s with devices := t.devices } ∧ ∀ a, t.byteAt a = s.byteAt a

/-- From `s` to `t` bus reads and one bus write of `v` at `ea`: no register, latch, counter or page slot changed, every byte
outside `ea` is as before, the byte at `ea` is `v` where a memory device takes writes, and as before elsewhere. -/
def State.StoresTo (ea : Addr) (v : Byte) (s t : State) : Prop :=
  t = { s with devices := t.devices } ∧ (∀ a, a ≠ ea → t.byteAt a = s.byteAt a) ∧
  (s.writableAt ea = true → s.memoryWf = true → t.byteAt ea = some v) ∧
  (s.writableAt ea = false → t.byteAt ea = s.byteAt ea)

/-- The stack address that the push number `k` from stack pointer `sp` writes to (20_memory.md R90). -/
def pushTarget (sp : Byte) (k : Nat) : Addr := stackAddr (sp - BitVec.ofNat 8 k)

/-- From `s` to `t` the bytes `bs` were pushed, the first one first: SP fell by their number modulo 256, nothing else of the
core changed, each byte stands at its stack address where a memory device takes writes, and every byte of memory outside
those addresses is as before (20_memory.md R90). -/
def State.PushedTo (bs : List Byte) (s t : State) : Prop :=
  t = { s with sp := s.sp - BitVec.ofNat 8 bs.length, devices := t.devices } ∧
  (∀ a, (∀ k < bs.length, a ≠ pushTarget s.sp k) → t.byteAt a = s.byteAt a) ∧
  (s.memoryWf = true → ∀ k v, bs[k]? = some v → s.writableAt (pushTarget s.sp k) = true →
    t.byteAt (pushTarget s.sp k) = some v) ∧
  (∀ k < bs.length, s.writableAt (pushTarget s.sp k) = false →
    t.byteAt (pushTarget s.sp k) = s.byteAt (pushTarget s.sp k))

/-- From `s` to `t` an interrupt was entered: `pc` and the status byte `status` were pushed, I is set in P, and PC is the
little-endian word at `vector` (60_exceptions.md R376). -/
def State.EntersThrough (vector pc : Addr) (status : Byte) (s t : State) : Prop :=
  ∃ u lo w hi w', s.PushedTo [hiByte pc, loByte pc, status] u ∧ busRead vector u = .ok lo w ∧
    busRead (vector + 1) w = .ok hi w' ∧ u.ReadsTo w' ∧ t = { w' with p := s.p ||| 0x04, pc := mkAddr hi lo }

/-- The accesses of an interrupt entry are in range. -/
def State.entryInRange (vector : Addr) (s : State) : Bool :=
  s.inRange (pushTarget s.sp 0) && s.inRange (pushTarget s.sp 1) && s.inRange (pushTarget s.sp 2) &&
    s.inRange vector && s.inRange (vector + 1)

/-- Pushes the bytes of a list, the first one first. -/
def pushAll : List Byte → State → Res Unit
  | [], s => .ok () s
  | b :: bs, s => (push b s).bind fun _ s => pushAll bs s

/-- Pops `n` bytes, the first popped first in the list. -/
def popAll : Nat → State → Res (List Byte)
  | 0, s => .ok [] s
  | n + 1, s => (pop s).bind fun b s => (popAll n s).bind fun bs s => .ok (b :: bs) s

/-! ## The ends of a run (70_reset_and_hazards.md R427) -/

/-- The core is locked up after a KIL. -/
def State.Halted (s : State) : Prop := s.halted = true

/-- PC is the target at the start of a step. -/
def State.Reached (target : Addr) (s : State) : Prop := s.pc = target

/-- A step leaves PC as it was. -/
def State.Trapped (s : State) : Prop := ∃ t, step s = .next t ∧ t.pc = s.pc

/-! ## Which instructions write which register and which flag -/

/-- The four 8-bit registers other than P. -/
inductive Reg where
  | a | x | y | sp
  deriving DecidableEq, Repr

/-- The mnemonics that may write a register (10_state.md R31 to R34, with files 41 to 46 for A). -/
def registerWriters : Reg → List Mnemonic
  | .a => [.lda, .pla, .txa, .tya, .adc, .sbc, .and, .ora, .eor, .asl, .lsr, .rol, .ror,
      .slo, .rla, .sre, .rra, .isc, .lax, .anc, .alr, .arr, .xaa, .las]
  | .x => [.ldx, .tax, .tsx, .inx, .dex, .lax, .axs, .las]
  | .y => [.ldy, .tay, .iny, .dey]
  | .sp => [.pha, .php, .pla, .plp, .jsr, .rts, .brk, .rti, .txs, .tas, .las]

/-- The mnemonics that write Z and N from a result (10_state.md R39, rows Z and N). -/
def resultFlagWriters : List Mnemonic :=
  [.lda, .ldx, .ldy, .tax, .tay, .txa, .tya, .tsx, .pla, .and, .ora, .eor, .adc, .sbc, .cmp, .cpx, .cpy, .asl, .lsr, .rol,
    .ror, .inc, .dec, .inx, .iny, .dex, .dey, .bit, .slo, .rla, .sre, .rra, .lax, .dcp, .isc, .anc, .alr, .arr, .xaa, .axs,
    .las]

/-- The mnemonics that may write a flag of P (10_state.md R37, R38 and the table of R39). -/
def flagWriters : Flag → List Mnemonic
  | .c => [.adc, .sbc, .cmp, .cpx, .cpy, .asl, .lsr, .rol, .ror, .slo, .rla, .sre, .rra, .dcp, .isc, .anc, .alr, .arr, .axs,
      .clc, .sec, .plp, .rti]
  | .z => resultFlagWriters ++ [.plp, .rti]
  | .n => resultFlagWriters ++ [.plp, .rti]
  | .i => [.brk, .cli, .sei, .plp, .rti]
  | .d => [.cld, .sed, .plp, .rti]
  | .v => [.adc, .sbc, .bit, .rra, .isc, .arr, .clv, .plp, .rti]
  | .b => [.plp, .rti]
  | .u => [.plp, .rti]

end Sys2Proof.Machine

namespace Sys2Proof

/-! ## How statements speak of an instruction -/

/-- The mnemonic of an instruction. -/
def Instr.mnemonic (i : Instr) : Mnemonic := i.entry.mnemonic

/-- The memory operand of an instruction, by its mode and its operand bytes (30_encoding.md R112). -/
def Instr.memOperand (i : Instr) : Option Machine.MemOperand :=
  match i.entry.mode, encode i with
  | .zp, [_, d] => some (.zp d)
  | .zpx, [_, d] => some (.zpx d)
  | .zpy, [_, d] => some (.zpy d)
  | .izx, [_, d] => some (.izx d)
  | .izy, [_, d] => some (.izy d)
  | .abs, [_, l, h] => some (.abs (mkAddr h l))
  | .abx, [_, l, h] => some (.abx (mkAddr h l))
  | .aby, [_, l, h] => some (.aby (mkAddr h l))
  | .ind, [_, l, h] => some (.ind (mkAddr h l))
  | _, _ => none

/-- The operand byte an instruction reads with `LoadOperand` and its page-cross flag: A in mode acc, the byte itself in mode
imm, one bus read at the effective address in a memory mode (40_step_and_addressing.md R141, R164). -/
def Instr.loadOperand (i : Instr) (s : Machine.State) : Option (Machine.Res (Byte × Bool)) :=
  match i.entry.mode, encode i with
  | .acc, _ => some (.ok (s.a, false) s)
  | .imm, [_, d] => some (.ok (d, false) s)
  | _, _ => i.memOperand.map fun m =>
      (Machine.resolve m s).bind fun r s => (Machine.busRead r.1 s).bind fun v s => .ok (v, r.2) s

/-- The state before an instruction's memory access to its effective address `ea`, with its page-cross flag `xa`: `t` is
the state after the pointer reads of the resolver (40_step_and_addressing.md R154 to R162). -/
def Instr.Addresses (i : Instr) (s : Machine.State) (ea : Addr) (xa : Bool) (t : Machine.State) : Prop :=
  ∃ m, i.memOperand = some m ∧ Machine.resolve m s = .ok (ea, xa) t

/-- The bus accesses of a store of `v`: the resolver's pointer reads, then one write of `v` at the effective address. -/
def Instr.Stores (i : Instr) (s : Machine.State) (ea : Addr) (xa : Bool) (v : Byte) (u : Machine.State) : Prop :=
  ∃ t, i.Addresses s ea xa t ∧ Machine.busWrite ea v t = .ok () u

/-- The bus accesses of a read-modify-write that reads `v` and writes `r`: the resolver's pointer reads, one read and one
write of the same address (43_shift_rmw.md R240). -/
def Instr.Modifies (i : Instr) (s : Machine.State) (ea : Addr) (xa : Bool) (v r : Byte) (u : Machine.State) : Prop :=
  ∃ t w, i.Addresses s ea xa t ∧ Machine.busRead ea t = .ok v w ∧ Machine.busWrite ea r w = .ok () u

/-- What every instruction does besides its own effect: PC moves past it, the base cycles are counted, and one more when the
page-cross flag and the sensitivity flag are both set (R141, R142). `t` is the state after the instruction's bus accesses. -/
def Instr.finish (i : Instr) (xa : Bool) (t : Machine.State) : Machine.State :=
  { t with pc := t.pc + BitVec.ofNat 16 i.entry.length, cycles := t.cycles + (i.entry.base + (xa && i.entry.xb).toNat) }

end Sys2Proof
end

