-- ==== Sys2Proof/Certificates/Slice0/Obligations.lean ====
section
/-! DEFINITION. The statements for the provers, in the order of OBLIGATIONS.json. Each docstring names the rules of spec/
that the statement formalises, and what in it is a choice of the spec or of the model. -/

open Sys2Proof Sys2Proof.Machine

/-! ## Encoding (30_encoding.md) -/

/-- Words written out from the spec's examples and opcode matrix decode to the instructions they stand for, one or more of
each family (R111, R114 to R116, with the examples of files 41 to 46). -/
def Obligations.SpecWordsDecode : Prop :=
  decode [0xA9, 0x80] = .ok (.ldaImm 0x80, []) ∧
  decode [0x8D, 0x00, 0x02] = .ok (.staAbs 0x0200, []) ∧
  decode [0xA1, 0xFE] = .ok (.ldaIndX 0xFE, []) ∧
  decode [0xB1, 0x10] = .ok (.ldaIndY 0x10, []) ∧
  decode [0xC9, 0x41] = .ok (.cmpImm 0x41, []) ∧
  decode [0x69, 0x20] = .ok (.adcImm 0x20, []) ∧
  decode [0xE9, 0x10] = .ok (.sbcImm 0x10, []) ∧
  decode [0x0A] = .ok (.aslAcc, []) ∧
  decode [0xCE, 0x00, 0x02] = .ok (.decAbs 0x0200, []) ∧
  decode [0xD0, 0xF8] = .ok (.bne (-8), []) ∧
  decode [0x30, 0x80] = .ok (.bmi (-128), []) ∧
  decode [0xF0, 0x7F] = .ok (.beq 127, []) ∧
  decode [0x6C, 0xFF, 0x10] = .ok (.jmpInd 0x10FF, []) ∧
  decode [0x20, 0x00, 0x06] = .ok (.jsrAbs 0x0600, []) ∧
  decode [0x00, 0x00] = .ok (.brk 0x00, []) ∧
  decode [0x58] = .ok (.cli, []) ∧
  decode [0x07, 0x10] = .ok (.sloZp 0x10, []) ∧
  decode [0x9B, 0x00, 0x12] = .ok (.tasAbsY 0x1200, []) ∧
  decode [0x0C, 0x34, 0x12] = .ok (.nopAbs 0x1234, []) ∧
  decode [0xEB, 0x10] = .ok (.sbcImmEB 0x10, []) ∧
  decode [0x02] = .ok (.kil 0x02, [])

/-- Decode after encode: every instruction with an encoding is read back from its own bytes, with every operand at every
value, and the bytes after it are left (R110, R111). -/
def Obligations.DecodeOfEncode : Prop :=
  ∀ (i : Instr) (rest : List Byte), i.wellFormed = true → decode (encode i ++ rest) = .ok (i, rest)

/-- Encode after decode: what the decoder accepts is a well-formed instruction whose bytes are the ones it consumed, so no
two byte strings stand for one instruction and no bit is dropped (R110, R111). -/
def Obligations.EncodeOfDecode : Prop :=
  ∀ (bytes rest : List Byte) (i : Instr), decode bytes = .ok (i, rest) →
    i.wellFormed = true ∧ encode i ++ rest = bytes

/-- There is no illegal opcode: every opcode byte with two bytes after it decodes, and the instruction takes the table's
length of them (R117, R120). -/
def Obligations.EveryOpcodeByteDecodes : Prop :=
  ∀ (op l h : Byte) (rest : List Byte), ∃ i, i.wellFormed = true ∧
    decode (op :: l :: h :: rest) = .ok (i, (op :: l :: h :: rest).drop i.entry.length)

/-- The length of an instruction follows from its mode, except that BRK, of mode imp, has two bytes (R111, R120, R124), and
is the length of its encoding. -/
def Obligations.LengthFollowsMode : Prop :=
  ∀ i : Instr, (encode i).length = i.entry.length ∧
    (i.mnemonic = .brk → i.entry.length = 2) ∧
    (i.mnemonic ≠ .brk → i.entry.length = (match i.entry.mode with
      | .imp | .acc => 1
      | .imm | .zp | .zpx | .zpy | .izx | .izy | .rel => 2
      | .abs | .abx | .aby | .ind => 3))

/-! ## The step (40_step_and_addressing.md, 60_exceptions.md) -/

/-- A step runs the decoded instruction: where no interrupt is serviced and the core is not halted, and the bytes at PC are
the bytes of `i`, the step is `exec i` of that state; and on any platform it is `exec` of what the fetch gives, in the state
after the fetch (R140, R141). The bytes the core does not read (BRK's padding, an untaken branch's offset) make no
difference (R124, R260; log 8). -/
def Obligations.StepRunsDecodedInstruction : Prop :=
  ∀ s : State, s.halted = false → s.intr ≠ .nmi → (s.intr = .irq → getFlag .i s.p = true) →
    (∀ (bytes : List Byte) (i : Instr), decode bytes = .ok (i, []) →
      (∀ k < bytes.length, s.byteAt (s.pc + BitVec.ofNat 16 k) = bytes[k]?) → step s = exec i s) ∧
    (∀ (i : Instr) (t : State), fetch s = .ok i t → step s = exec i t)

/-- A step does one of four things, in the spec's order: nothing while halted, NMI service, IRQ service if I is clear, else
an instruction (R140, with R144 and R374). The test of I is decision D5 of the spec, the halted state its D12; that the halted
step answers the fault `halted` is log 7. -/
def Obligations.StepChoosesOneOfFour : Prop :=
  ∀ s : State,
    (s.halted = true → step s = .fault .halted) ∧
    (s.halted = false → s.intr = .nmi → step s = (serviceInterrupt nmiVector s).toResult) ∧
    (s.halted = false → s.intr = .irq → getFlag .i s.p = false → step s = (serviceInterrupt irqVector s).toResult) ∧
    (s.halted = false → (s.intr = .none ∨ (s.intr = .irq ∧ getFlag .i s.p = true)) → step s = runInstruction s)

/-- NMI service (R377 with R376): whatever I holds, PC high, PC low and the status with Break clear and Unused set are
pushed, I is set, PC is the word at 0xFFFA, 7 cycles pass, the latch is cleared. The stack address of a push and that D is left
alone are decisions D2 and D26 of the spec. -/
def Obligations.NmiService : Prop :=
  ∀ s : State, s.halted = false → s.intr = .nmi → s.entryInRange 0xFFFA = true →
    ∃ t, s.EntersThrough 0xFFFA s.pc ((s.p &&& 0xEF) ||| 0x20) t ∧
      step s = .next { t with intr := .none, cycles := s.cycles + 7 }

/-- IRQ service (R378 with R376), only when I is clear: as for NMI with the vector at 0xFFFE. The test of I is
decision D5 of the spec (90_conflicts.md C1), the push and D as for NMI are its D2 and D26. -/
def Obligations.IrqService : Prop :=
  ∀ s : State, s.halted = false → s.intr = .irq → getFlag .i s.p = false → s.entryInRange 0xFFFE = true →
    ∃ t, s.EntersThrough 0xFFFE s.pc ((s.p &&& 0xEF) ||| 0x20) t ∧
      step s = .next { t with intr := .none, cycles := s.cycles + 7 }

/-- Raising: `raiseIRQ` never downgrades an NMI and does not look at I, `raiseNMI` is unconditional; raising again changes
nothing; nothing but the latch changes (R371, R372). -/
def Obligations.RequestsAreLatched : Prop :=
  ∀ s : State,
    (s.intr ≠ .nmi → s.raiseIrq = { s with intr := .irq }) ∧
    (s.intr = .nmi → s.raiseIrq = s) ∧
    (s.intr = .irq → s.raiseIrq = s) ∧
    s.raiseNmi = { s with intr := .nmi } ∧
    (s.intr = .nmi → s.raiseNmi = s) ∧
    s.raiseIrq.raiseNmi = s.raiseNmi ∧ s.raiseNmi.raiseIrq = s.raiseNmi

/-! ## Loads, logic, compares, arithmetic (files 41, 42) -/

/-- LDA, LDX, LDY and LAX from memory: the register (both, for LAX) is the operand byte, Z and N follow it, everything else
but PC and cycles is as before (R181, R182, R183, R326; the loads' effects are decision D25 of the spec, LAX's pairing its D13).
LAX immediate is `ImmediateMagicResults`. -/
def Obligations.LoadResults : Prop :=
  ∀ (i : Instr) (s t : State) (v : Byte) (xa : Bool), i.loadOperand s = some (.ok (v, xa) t) →
    s.ReadsTo t ∧
    (i.mnemonic = .lda → exec i s = .next (i.finish xa { t with a := v, p := setZN v s.p })) ∧
    (i.mnemonic = .ldx → exec i s = .next (i.finish xa { t with x := v, p := setZN v s.p })) ∧
    (i.mnemonic = .ldy → exec i s = .next (i.finish xa { t with y := v, p := setZN v s.p })) ∧
    (i.mnemonic = .lax → i.entry.mode ≠ .imm →
      exec i s = .next (i.finish xa { t with a := v, x := v, p := setZN v s.p }))

/-- AND, ORA, EOR: A is combined with the operand byte bit by bit, Z and N follow A, everything else but PC and cycles is as
before (R193, R194, R195; the effects are the spec's decision D25). -/
def Obligations.LogicResults : Prop :=
  ∀ (i : Instr) (s t : State) (v : Byte) (xa : Bool), i.loadOperand s = some (.ok (v, xa) t) →
    s.ReadsTo t ∧
    (i.mnemonic = .and → exec i s = .next (i.finish xa { t with a := s.a &&& v, p := setZN (s.a &&& v) s.p })) ∧
    (i.mnemonic = .ora → exec i s = .next (i.finish xa { t with a := s.a ||| v, p := setZN (s.a ||| v) s.p })) ∧
    (i.mnemonic = .eor → exec i s = .next (i.finish xa { t with a := s.a ^^^ v, p := setZN (s.a ^^^ v) s.p }))

/-- BIT and the compares write flags only: BIT takes Z from `A & m`, N and V from bits 7 and 6 of the operand (R196, where
Z is the spec's general knowledge); CMP, CPX, CPY are `Compare` of A, X, Y (R197 to R199). -/
def Obligations.BitAndCompareResults : Prop :=
  ∀ (i : Instr) (s t : State) (v : Byte) (xa : Bool), i.loadOperand s = some (.ok (v, xa) t) →
    s.ReadsTo t ∧
    (i.mnemonic = .bit → ∃ q, exec i s = .next (i.finish xa { t with p := q }) ∧
      getFlag .z q = decide (s.a &&& v = 0) ∧ getFlag .n q = v.getLsbD 7 ∧ getFlag .v q = v.getLsbD 6 ∧
      ∀ g ∈ [Flag.c, .i, .d, .b, .u], getFlag g q = getFlag g s.p) ∧
    (i.mnemonic = .cmp → exec i s = .next (i.finish xa { t with p := compareFlags s.a v s.p })) ∧
    (i.mnemonic = .cpx → exec i s = .next (i.finish xa { t with p := compareFlags s.x v s.p })) ∧
    (i.mnemonic = .cpy → exec i s = .next (i.finish xa { t with p := compareFlags s.y v s.p }))

/-- ADC and SBC (every form, $EB too): A and P are those of the binary sequence when D is clear and of the decimal sequence
when D is set, with the carry before the instruction; everything else but PC and cycles is as before (R220, R221, R227,
R340). -/
def Obligations.AddSubtractResults : Prop :=
  ∀ (i : Instr) (s t : State) (v : Byte) (xa : Bool), i.loadOperand s = some (.ok (v, xa) t) →
    s.ReadsTo t ∧
    ∀ c, getFlag .c s.p = c →
    (i.mnemonic = .adc → getFlag .d s.p = false → exec i s = .next (i.finish xa
      { t with a := (addBinary s.a v c s.p).1, p := (addBinary s.a v c s.p).2 })) ∧
    (i.mnemonic = .adc → getFlag .d s.p = true → exec i s = .next (i.finish xa
      { t with a := (addDecimal s.a v c s.p).1, p := (addDecimal s.a v c s.p).2 })) ∧
    (i.mnemonic = .sbc → getFlag .d s.p = false → exec i s = .next (i.finish xa
      { t with a := (subBinary s.a v c s.p).1, p := (subBinary s.a v c s.p).2 })) ∧
    (i.mnemonic = .sbc → getFlag .d s.p = true → exec i s = .next (i.finish xa
      { t with a := (subDecimal s.a v c s.p).1, p := (subDecimal s.a v c s.p).2 }))

/-! ## Stores, transfers, shifts, increments (files 41, 43) -/

/-- STA, STX, STY, SAX: one write of A, X, Y or A AND X at the effective address; no register and no flag changes, and no
byte outside the effective address (R184, R185, R186, R325; the effects are the spec's general knowledge). -/
def Obligations.StoreResults : Prop :=
  ∀ (i : Instr) (s u : State) (ea : Addr) (v : Byte) (xa : Bool),
    ((i.mnemonic = .sta ∧ v = s.a) ∨ (i.mnemonic = .stx ∧ v = s.x) ∨ (i.mnemonic = .sty ∧ v = s.y) ∨
      (i.mnemonic = .sax ∧ v = s.a &&& s.x)) →
    i.Stores s ea xa v u → exec i s = .next (i.finish xa u) ∧ s.StoresTo ea v u

/-- The six transfers and the four register increments and decrements: one register changes, Z and N follow it except for
TXS, PC moves by one, two cycles pass, everything else is as before (R187 to R192, R247 to R250; the effects are the spec's
general knowledge). -/
def Obligations.RegisterResults : Prop :=
  ∀ s t : State, t = { s with pc := s.pc + 1, cycles := s.cycles + 2 } →
    exec .tax s = .next { t with x := s.a, p := setZN s.a s.p } ∧
    exec .tay s = .next { t with y := s.a, p := setZN s.a s.p } ∧
    exec .txa s = .next { t with a := s.x, p := setZN s.x s.p } ∧
    exec .tya s = .next { t with a := s.y, p := setZN s.y s.p } ∧
    exec .tsx s = .next { t with x := s.sp, p := setZN s.sp s.p } ∧
    exec .txs s = .next { t with sp := s.x } ∧
    exec .inx s = .next { t with x := s.x + 1, p := setZN (s.x + 1) s.p } ∧
    exec .iny s = .next { t with y := s.y + 1, p := setZN (s.y + 1) s.p } ∧
    exec .dex s = .next { t with x := s.x - 1, p := setZN (s.x - 1) s.p } ∧
    exec .dey s = .next { t with y := s.y - 1, p := setZN (s.y - 1) s.p }

/-- ASL, LSR, ROL, ROR on A or on memory, INC and DEC on memory: the byte is read, the instruction's function (see
`ShiftFunctions`) gives the byte written back to the same place and the flags; everything else but PC and cycles is as
before (R240 to R246; the bit-level functions are the spec's general knowledge). -/
def Obligations.ModifyResults : Prop :=
  ∀ (i : Instr) (s : State) (f : Byte → Byte → Byte × Byte),
    ((i.mnemonic = .asl ∧ f = aslByte) ∨ (i.mnemonic = .lsr ∧ f = lsrByte) ∨ (i.mnemonic = .rol ∧ f = rolByte) ∨
      (i.mnemonic = .ror ∧ f = rorByte) ∨ (i.mnemonic = .inc ∧ f = incByte) ∨ (i.mnemonic = .dec ∧ f = decByte)) →
    (i.entry.mode = .acc →
      exec i s = .next (i.finish false { s with a := (f s.a s.p).1, p := (f s.a s.p).2 })) ∧
    (∀ (ea : Addr) (xa : Bool) (v : Byte) (u : State), i.Modifies s ea xa v (f v s.p).1 u →
      exec i s = .next (i.finish xa { u with p := (f v s.p).2 }) ∧ s.StoresTo ea (f v s.p).1 u)

/-! ## Control flow and the stack (files 44, 45) -/

/-- The eight branches (R260 to R268): taken exactly when the flag of the mnemonic has its value, to the address of the next
instruction plus the sign-extended offset; 2 cycles not taken, 3 taken in the page of the next instruction, 4 to another
page; nothing else changes. Which flag each tests is the spec's general knowledge (D25), the wrap of the target its D11. -/
def Obligations.BranchResults : Prop :=
  ∀ (i : Instr) (s : State) (op d : Byte) (f : Flag) (value : Bool) (next target : Addr),
    (i.mnemonic, f, value) ∈ [(Mnemonic.bcc, Flag.c, false), (.bcs, .c, true), (.bne, .z, false), (.beq, .z, true),
      (.bpl, .n, false), (.bmi, .n, true), (.bvc, .v, false), (.bvs, .v, true)] →
    i.wellFormed = true → encode i = [op, d] → next = s.pc + 2 → target = next + d.signExtend 16 →
    (getFlag f s.p ≠ value → exec i s = .next { s with pc := next, cycles := s.cycles + 2 }) ∧
    (getFlag f s.p = value → target.toNat / 256 = next.toNat / 256 →
      exec i s = .next { s with pc := target, cycles := s.cycles + 3 }) ∧
    (getFlag f s.p = value → target.toNat / 256 ≠ next.toNat / 256 →
      exec i s = .next { s with pc := target, cycles := s.cycles + 4 })

/-- JMP: PC is the effective address, which is not read; nothing else changes but cycles (R282). -/
def Obligations.JumpResults : Prop :=
  ∀ (i : Instr) (s t : State) (ea : Addr) (xa : Bool), i.mnemonic = .jmp → i.Addresses s ea xa t →
    exec i s = .next { t with pc := ea, cycles := s.cycles + i.entry.base } ∧ s.ReadsTo t

/-- JSR pushes the address of its last byte, high byte first, and jumps; RTS pops low then high and adds one (R280, R281; the
minus one and plus one are decision D19 of the spec). -/
def Obligations.SubroutineResults : Prop :=
  ∀ s : State,
    (∀ a : Addr, s.inRange (pushTarget s.sp 0) = true → s.inRange (pushTarget s.sp 1) = true →
      ∃ t, s.PushedTo [hiByte (s.pc + 2), loByte (s.pc + 2)] t ∧
        exec (.jsrAbs a) s = .next { t with pc := a, cycles := s.cycles + 6 }) ∧
    (∀ (lo hi : Byte) (t u : State), busRead (stackAddr (s.sp + 1)) s = .ok lo t →
      busRead (stackAddr (s.sp + 2)) t = .ok hi u →
      exec .rts s = .next { u with sp := s.sp + 2, pc := mkAddr hi lo + 1, cycles := s.cycles + 6 } ∧ s.ReadsTo u)

/-- BRK takes the interrupt (R283, R379 with R376): PC0 + 2 and the status with Break and Unused set are pushed, I is set, PC
is the word at 0xFFFE; `intr` is not touched and I is not tested. The padding byte makes no difference (R124). The vector and
the pushed PC are decision D7 of the spec, the push its D2. -/
def Obligations.BrkTakesInterrupt : Prop :=
  ∀ (s : State) (pad : Byte), s.entryInRange 0xFFFE = true →
    ∃ t, s.EntersThrough 0xFFFE (s.pc + 2) (s.p ||| 0x30) t ∧
      exec (.brk pad) s = .next { t with cycles := s.cycles + 7 }

/-- RTI pops P (Unused forced to 1, Break as popped), then PC low, then PC high, with no increment (R284, R382; Break as
popped is decision D8 of the spec, the pop its D2). -/
def Obligations.RtiRestores : Prop :=
  ∀ (s t u w : State) (v lo hi : Byte), busRead (stackAddr (s.sp + 1)) s = .ok v t →
    busRead (stackAddr (s.sp + 2)) t = .ok lo u → busRead (stackAddr (s.sp + 3)) u = .ok hi w →
    exec .rti s = .next { w with sp := s.sp + 3, p := v ||| 0x20, pc := mkAddr hi lo, cycles := s.cycles + 6 } ∧
      s.ReadsTo w

/-- PHA and PHP push A and the status with Break and Unused set; PLA pops A and sets Z and N; PLP pops P with Unused forced
to 1 (R285 to R288; PLA's flags are the spec's general knowledge, Break as popped is its decision D8). -/
def Obligations.PushAndPullResults : Prop :=
  ∀ s : State,
    (s.inRange (pushTarget s.sp 0) = true →
      (∃ t, s.PushedTo [s.a] t ∧ exec .pha s = .next { t with pc := s.pc + 1, cycles := s.cycles + 3 }) ∧
      (∃ t, s.PushedTo [s.p ||| 0x30] t ∧ exec .php s = .next { t with pc := s.pc + 1, cycles := s.cycles + 3 })) ∧
    (∀ (v : Byte) (t : State), busRead (stackAddr (s.sp + 1)) s = .ok v t →
      exec .pla s = .next
        { t with a := v, p := setZN v s.p, sp := s.sp + 1, pc := s.pc + 1, cycles := s.cycles + 4 } ∧
      exec .plp s = .next { t with p := v ||| 0x20, sp := s.sp + 1, pc := s.pc + 1, cycles := s.cycles + 4 } ∧
      s.ReadsTo t)

/-- The seven flag instructions: one bit of P changes, PC moves by one, two cycles pass, everything else is as before (R289
to R295; the effects are the spec's general knowledge). -/
def Obligations.FlagInstructionResults : Prop :=
  ∀ s t : State, t = { s with pc := s.pc + 1, cycles := s.cycles + 2 } →
    exec .clc s = .next { t with p := s.p &&& 0xFE } ∧
    exec .sec s = .next { t with p := s.p ||| 0x01 } ∧
    exec .cli s = .next { t with p := s.p &&& 0xFB } ∧
    exec .sei s = .next { t with p := s.p ||| 0x04 } ∧
    exec .clv s = .next { t with p := s.p &&& 0xBF } ∧
    exec .cld s = .next { t with p := s.p &&& 0xF7 } ∧
    exec .sed s = .next { t with p := s.p ||| 0x08 }

/-- NOP, documented and undocumented: PC moves by the length and the cycles of the table pass; a form with a memory operand
reads it once; nothing else changes (R296, R339; the undocumented bytes are decision D13 of the spec). -/
def Obligations.NopResults : Prop :=
  ∀ (i : Instr) (s : State), i.mnemonic = .nop →
    (i.memOperand = none → exec i s = .next (i.finish false s)) ∧
    (∀ (v : Byte) (xa : Bool) (t : State), i.loadOperand s = some (.ok (v, xa) t) →
      exec i s = .next (i.finish xa t) ∧ s.ReadsTo t)

/-! ## Undocumented opcodes (46_undocumented.md) -/

/-- The combinations (R320 to R324, R327, R328): memory is modified by the first half, and the second half runs on the byte
written, with the flags the first half left (D13 and D14 of the spec: the pairing is its general knowledge). -/
def Obligations.CombinationResults : Prop :=
  ∀ (i : Instr) (s u : State) (ea : Addr) (xa : Bool) (v r q : Byte), i.Modifies s ea xa v r u →
    s.StoresTo ea r u ∧
    (i.mnemonic = .slo → (r, q) = aslByte v s.p →
      exec i s = .next (i.finish xa { u with a := s.a ||| r, p := setZN (s.a ||| r) q })) ∧
    (i.mnemonic = .rla → (r, q) = rolByte v s.p →
      exec i s = .next (i.finish xa { u with a := s.a &&& r, p := setZN (s.a &&& r) q })) ∧
    (i.mnemonic = .sre → (r, q) = lsrByte v s.p →
      exec i s = .next (i.finish xa { u with a := s.a ^^^ r, p := setZN (s.a ^^^ r) q })) ∧
    (i.mnemonic = .rra → (r, q) = rorByte v s.p →
      exec i s = .next (i.finish xa { u with a := (addWithCarry s.a r q).1, p := (addWithCarry s.a r q).2 })) ∧
    (i.mnemonic = .dcp → (r, q) = decByte v s.p →
      exec i s = .next (i.finish xa { u with p := compareFlags s.a r q })) ∧
    (i.mnemonic = .isc → (r, q) = incByte v s.p →
      exec i s = .next (i.finish xa { u with a := (subWithBorrow s.a r q).1, p := (subWithBorrow s.a r q).2 }))

/-- ANC, ALR, AXS, LAS, and ARR with its decimal variant (R329, R330, R331, R333, R338; effects by decision D14 of the
spec). -/
def Obligations.StableCombinationResults : Prop :=
  ∀ (i : Instr) (s t : State) (v m rot : Byte) (xa : Bool), i.loadOperand s = some (.ok (v, xa) t) → m = s.a &&& v →
    rot = BitVec.ofNat 8 (m.toNat / 2 + 128 * (getFlag .c s.p).toNat) →
    s.ReadsTo t ∧
    (i.mnemonic = .anc → exec i s = .next (i.finish xa
      { t with a := m, p := putFlag .c (m.getLsbD 7) (setZN m s.p) })) ∧
    (i.mnemonic = .alr → exec i s = .next (i.finish xa
      { t with a := m >>> 1, p := setZN (m >>> 1) (putFlag .c (m.getLsbD 0) s.p) })) ∧
    (i.mnemonic = .axs → exec i s = .next (i.finish xa
      { t with x := (s.a &&& s.x) - v, p := compareFlags (s.a &&& s.x) v s.p })) ∧
    (i.mnemonic = .las → exec i s = .next (i.finish xa
      { t with a := v &&& s.sp, x := v &&& s.sp, sp := v &&& s.sp, p := setZN (v &&& s.sp) s.p })) ∧
    (i.mnemonic = .arr → getFlag .d s.p = false → exec i s = .next (i.finish xa
      { t with a := rot,
               p := putFlag .v (rot.getLsbD 6 != rot.getLsbD 5) (putFlag .c (rot.getLsbD 6) (setZN rot s.p)) })) ∧
    (i.mnemonic = .arr → getFlag .d s.p = true → ∀ low high : Nat,
      low = (if m.toNat % 16 + m.toNat % 2 > 5 then (rot.toNat + 6) % 16 else rot.toNat % 16) →
      high = (if m.toNat / 16 + m.toNat / 16 % 2 > 5 then (rot.toNat / 16 + 6) % 16 else rot.toNat / 16) →
      exec i s = .next (i.finish xa
        { t with a := BitVec.ofNat 8 (16 * high + low),
                 p := putFlag .c (decide (m.toNat / 16 + m.toNat / 16 % 2 > 5))
                   (putFlag .v (m.getLsbD 6 != rot.getLsbD 6) (setZN rot s.p)) }))

/-- XAA and LAX immediate, for every value of the two MAGIC parameters, about which nothing is assumed (R332, R341; effects by
decision D15 of the spec; the parameters are log 10). -/
def Obligations.ImmediateMagicResults : Prop :=
  ∀ (s t : State) (d v : Byte), t = { s with pc := s.pc + 2, cycles := s.cycles + 2 } →
    (v = (s.a ||| Config.xaaMagic) &&& s.x &&& d → exec (.xaaImm d) s = .next { t with a := v, p := setZN v s.p }) ∧
    (v = (s.a ||| Config.laxMagic) &&& d → exec (.laxImm d) s = .next { t with a := v, x := v, p := setZN v s.p })

/-- AHX, SHY, SHX, TAS: the byte stored is masked with one more than the high byte of the un-indexed address; TAS also sets
SP to A AND X; no flag changes (R334 to R337; effects by decision D15 of the spec; no page-cross corruption, log 11). -/
def Obligations.UnstableStoreResults : Prop :=
  ∀ (i : Instr) (s u : State) (ea : Addr) (xa : Bool) (index v : Byte),
    (i.entry.mode = .abx ∧ index = s.x) ∨ (i.entry.mode ≠ .abx ∧ index = s.y) →
    i.Stores s ea xa v u →
    s.StoresTo ea v u ∧
    (i.mnemonic = .ahx → v = s.a &&& s.x &&& (hiByte (ea - zext16 index) + 1) → exec i s = .next (i.finish xa u)) ∧
    (i.mnemonic = .shy → v = s.y &&& (hiByte (ea - zext16 index) + 1) → exec i s = .next (i.finish xa u)) ∧
    (i.mnemonic = .shx → v = s.x &&& (hiByte (ea - zext16 index) + 1) → exec i s = .next (i.finish xa u)) ∧
    (i.mnemonic = .tas → v = s.a &&& s.x &&& (hiByte (ea - zext16 index) + 1) →
      exec i s = .next (i.finish xa { u with sp := s.a &&& s.x }))

/-- KIL halts: `halted` is set, PC has moved by one, no cycle is counted, nothing else changes, and from then on no step
exists whatever is raised, until reset (R345, R144, R388; decision D12 of the spec; the fault `halted` is log 7). -/
def Obligations.KilHalts : Prop :=
  ∀ (op : Byte) (s t : State), t = { s with halted := true, pc := s.pc + 1 } →
    exec (.kil op) s = .next t ∧ step t = .fault .halted ∧ step t.raiseIrq = .fault .halted ∧
      step t.raiseNmi = .fault .halted

/-! ## The functions of the arithmetic and logic unit -/

/-- `setZN(v)`: Z is set exactly when v is 0, N is bit 7 of v, no other flag changes (R11). -/
def Obligations.SetZN : Prop :=
  ∀ (v p : Byte), getFlag .z (setZN v p) = decide (v = 0) ∧ getFlag .n (setZN v p) = v.getLsbD 7 ∧
    ∀ g : Flag, g ≠ .z → g ≠ .n → getFlag g (setZN v p) = getFlag g p

/-- `Compare(r, m)`: C is the unsigned r ≥ m, equivalently the carry out of r + (m ^ 0xFF) + 1; Z is r = m; N is bit 7 of
the difference; no other flag changes, and D is not read (R200; the carry rule is the spec's general knowledge). -/
def Obligations.CompareFlags : Prop :=
  ∀ (r m p : Byte),
    getFlag .c (compareFlags r m p) = decide (m.toNat ≤ r.toNat) ∧
    getFlag .c (compareFlags r m p) = decide (256 ≤ r.toNat + (m ^^^ 0xFF).toNat + 1) ∧
    getFlag .z (compareFlags r m p) = decide (r = m) ∧
    getFlag .n (compareFlags r m p) = decide (128 ≤ (256 + r.toNat - m.toNat) % 256) ∧
    ∀ g ∈ [Flag.i, .d, .b, .u, .v], getFlag g (compareFlags r m p) = getFlag g p

/-- `AddBinary`: the byte is the nine-bit sum modulo 256, C its ninth bit, V is set exactly when the signed sum lies outside
-128 to 127, equivalently when both operands have one sign and the result the other, Z and N follow the byte, no other flag
changes (R222). -/
def Obligations.AddBinary : Prop :=
  ∀ (a m p r q : Byte) (c : Bool), (r, q) = addBinary a m c p →
    r.toNat = (a.toNat + m.toNat + c.toNat) % 256 ∧
    getFlag .c q = decide (255 < a.toNat + m.toNat + c.toNat) ∧
    getFlag .v q = decide (a.toInt + m.toInt + c.toNat < -128 ∨ 127 < a.toInt + m.toInt + c.toNat) ∧
    getFlag .v q = ((a ^^^ r) &&& (m ^^^ r)).getLsbD 7 ∧
    getFlag .z q = decide (r = 0) ∧ getFlag .n q = r.getLsbD 7 ∧
    ∀ g ∈ [Flag.i, .d, .b, .u], getFlag g q = getFlag g p

/-- `SubBinary`: the byte is a - m - (1 - c) modulo 256, C is set exactly when there is no borrow, V exactly when the signed
difference lies outside -128 to 127, Z and N follow the byte, no other flag changes (R224; the identity with addition is the
spec's general knowledge). -/
def Obligations.SubBinary : Prop :=
  ∀ (a m p r q : Byte) (c : Bool), (r, q) = subBinary a m c p →
    (r.toNat : Int) = ((a.toNat : Int) - m.toNat - (1 - c.toNat)) % 256 ∧
    getFlag .c q = decide (m.toNat + (1 - c.toNat) ≤ a.toNat) ∧
    getFlag .v q = decide (a.toInt - m.toInt - (1 - c.toNat) < -128 ∨ 127 < a.toInt - m.toInt - (1 - c.toNat)) ∧
    getFlag .z q = decide (r = 0) ∧ getFlag .n q = r.getLsbD 7 ∧
    ∀ g ∈ [Flag.i, .d, .b, .u], getFlag g q = getFlag g p

/-- `AddDecimal`: on decimal digits the result is the decimal sum modulo 100 and C its carry; on all operands Z comes from
the binary sum, N and V from the intermediate after the low-nibble correction, C and the result from that intermediate after
the high-nibble correction (R223; the sequence is decision D9 of the spec). -/
def Obligations.AddDecimal : Prop :=
  ∀ (a m p r q : Byte) (c : Bool), (r, q) = addDecimal a m c p →
    (∀ tens ones tens' ones' : Nat, tens ≤ 9 → ones ≤ 9 → tens' ≤ 9 → ones' ≤ 9 →
      a.toNat = 16 * tens + ones → m.toNat = 16 * tens' + ones' →
      r.toNat = 16 * ((10 * tens + ones + (10 * tens' + ones') + c.toNat) % 100 / 10) +
        (10 * tens + ones + (10 * tens' + ones') + c.toNat) % 10 ∧
      getFlag .c q = decide (100 ≤ 10 * tens + ones + (10 * tens' + ones') + c.toNat)) ∧
    (∀ low mid : Nat,
      low = (if 10 ≤ a.toNat % 16 + m.toNat % 16 + c.toNat
        then (a.toNat % 16 + m.toNat % 16 + c.toNat + 6) % 16 + 16 else a.toNat % 16 + m.toNat % 16 + c.toNat) →
      mid = a.toNat - a.toNat % 16 + (m.toNat - m.toNat % 16) + low →
      getFlag .n q = decide (mid / 128 % 2 = 1) ∧
      getFlag .v q = decide (a.toNat / 128 = m.toNat / 128 ∧ mid / 128 % 2 ≠ a.toNat / 128) ∧
      getFlag .c q = decide (160 ≤ mid) ∧
      r.toNat = (if 160 ≤ mid then mid + 96 else mid) % 256) ∧
    getFlag .z q = decide ((a.toNat + m.toNat + c.toNat) % 256 = 0) ∧
    ∀ g ∈ [Flag.i, .d, .b, .u], getFlag g q = getFlag g p

/-- `SubDecimal`: on decimal digits the result is the decimal difference modulo 100; the four flags are those of the binary
subtraction, on all operands (R225; the sequence is decision D9 of the spec). -/
def Obligations.SubDecimal : Prop :=
  ∀ (a m p r q : Byte) (c : Bool), (r, q) = subDecimal a m c p →
    (∀ tens ones tens' ones' : Nat, tens ≤ 9 → ones ≤ 9 → tens' ≤ 9 → ones' ≤ 9 →
      a.toNat = 16 * tens + ones → m.toNat = 16 * tens' + ones' →
      r.toNat = 16 * ((100 + (10 * tens + ones) + c.toNat - (10 * tens' + ones') - 1) % 100 / 10) +
        (100 + (10 * tens + ones) + c.toNat - (10 * tens' + ones') - 1) % 10) ∧
    (∀ low s : Int,
      low = (if (a.toNat % 16 : Int) - (m.toNat % 16 : Int) + c.toNat - 1 < 0
        then ((a.toNat % 16 : Int) - (m.toNat % 16 : Int) + c.toNat - 1 - 6) % 16 - 16
        else (a.toNat % 16 : Int) - (m.toNat % 16 : Int) + c.toNat - 1) →
      s = (a.toNat - a.toNat % 16 : Int) - (m.toNat - m.toNat % 16 : Int) + low →
      (r.toNat : Int) = (if s < 0 then s - 96 else s) % 256) ∧
    q = (subBinary a m c p).2

/-- The shift, rotate, increment and decrement functions, by value: the byte, the carry, Z and N, and no other flag (R241 to
R246; the functions are the spec's general knowledge). -/
def Obligations.ShiftFunctions : Prop :=
  ∀ v p : Byte,
    (aslByte v p).1.toNat = 2 * v.toNat % 256 ∧ getFlag .c (aslByte v p).2 = decide (128 ≤ v.toNat) ∧
    (lsrByte v p).1.toNat = v.toNat / 2 ∧ getFlag .c (lsrByte v p).2 = decide (v.toNat % 2 = 1) ∧
    (rolByte v p).1.toNat = 2 * v.toNat % 256 + (getFlag .c p).toNat ∧
    getFlag .c (rolByte v p).2 = decide (128 ≤ v.toNat) ∧
    (rorByte v p).1.toNat = v.toNat / 2 + 128 * (getFlag .c p).toNat ∧
    getFlag .c (rorByte v p).2 = decide (v.toNat % 2 = 1) ∧
    (incByte v p).1.toNat = (v.toNat + 1) % 256 ∧ getFlag .c (incByte v p).2 = getFlag .c p ∧
    (decByte v p).1.toNat = (v.toNat + 255) % 256 ∧ getFlag .c (decByte v p).2 = getFlag .c p ∧
    ∀ f ∈ [aslByte, lsrByte, rolByte, rorByte, incByte, decByte],
      getFlag .z (f v p).2 = decide ((f v p).1 = 0) ∧ getFlag .n (f v p).2 = (f v p).1.getLsbD 7 ∧
      ∀ g ∈ [Flag.i, .d, .b, .u, .v], getFlag g (f v p).2 = getFlag g p

/-! ## The bus, the addressing modes, the stack (20_memory.md, 40_step_and_addressing.md) -/

/-- What one bus access does (R70 to R74, R80 to R83). The page is the high byte of the address. An empty slot, and the slot
of a released device, reads 0x00 and drops writes; a memory device gets the full address, answers its byte or keeps the
byte written, and faults at or above its size; one with no write capability drops every write, and that it does so at or above
its size too, where R83 read alone would fault, is the model's choice between R74 and R83 (log 21); what another device answers
is a parameter (log 13). -/
def Obligations.BusAccess : Prop :=
  ∀ (s : State) (a : Addr) (v : Byte) (page : Fin 256), page.val = a.toNat / 256 →
    ((s.slots.get page = none ∨ ∃ d, s.slots.get page = some d ∧ s.devices[d]? = some none) →
      busRead a s = .ok 0 s ∧ busWrite a v s = .ok () s) ∧
    (∀ (d : Nat) (kind : MemKind) (size : Nat) (cells : Memory), s.slots.get page = some d →
      s.devices[d]? = some (some (Device.memory kind size cells)) →
      (a.toNat < size → busRead a s = .ok (Memory.read cells a.toNat) s) ∧
      (size ≤ a.toNat → busRead a s = .fault (.deviceOutOfRange a)) ∧
      (kind = .readOnly → busWrite a v s = .ok () s) ∧
      (kind ≠ .readOnly → a.toNat < size → busWrite a v s = .ok ()
        { s with devices := s.devices.set d (some (Device.memory kind size (Memory.write cells a.toNat v))) }) ∧
      (kind ≠ .readOnly → size ≤ a.toNat → busWrite a v s = .fault (.deviceOutOfRange a))) ∧
    (∀ (d id : Nat) (writable : Bool) (inner : Nat), s.slots.get page = some d →
      s.devices[d]? = some (some (.foreign id writable inner)) →
      (∃ w inner', busRead a s = .ok w { s with devices := s.devices.set d (some (.foreign id writable inner')) }) ∧
      (writable = false → busWrite a v s = .ok () s) ∧
      (writable = true → ∃ inner', busWrite a v s = .ok ()
        { s with devices := s.devices.set d (some (.foreign id writable inner')) }))

/-- Reading changes nothing a program could see in memory and gives the byte that is there; a write puts its byte at its own
address and leaves every other byte alone, so that a read after it gives the byte written (R81, R93, R95). -/
def Obligations.ReadAfterWrite : Prop :=
  ∀ (s t : State) (a : Addr) (v : Byte),
    (busRead a s = .ok v t → s.ReadsTo t ∧ ∀ w, s.byteAt a = some w → v = w ∧ t = s) ∧
    (busWrite a v s = .ok () t → s.StoresTo a v t ∧
      (s.memoryWf = true → s.writableAt a = true → busRead a t = .ok v t))

/-- The modes that read no pointer (R154 to R159): the effective address and the page-cross flag, with the zero-page sums
modulo 256 (zpx's wrap is the spec's general knowledge) and the others modulo 65536 (decision D11 of the spec); the state is
unchanged. -/
def Obligations.DirectModes : Prop :=
  ∀ (s : State) (d : Byte) (a : Addr), ∃ zpx zpy abx aby : Addr,
    zpx.toNat = (d.toNat + s.x.toNat) % 256 ∧ zpy.toNat = (d.toNat + s.y.toNat) % 256 ∧
    abx.toNat = (a.toNat + s.x.toNat) % 65536 ∧ aby.toNat = (a.toNat + s.y.toNat) % 65536 ∧
    resolve (.zp d) s = .ok (BitVec.ofNat 16 d.toNat, false) s ∧
    resolve (.zpx d) s = .ok (zpx, false) s ∧
    resolve (.zpy d) s = .ok (zpy, false) s ∧
    resolve (.abs a) s = .ok (a, false) s ∧
    resolve (.abx a) s = .ok (abx, decide (abx.toNat / 256 ≠ a.toNat / 256)) s ∧
    resolve (.aby a) s = .ok (aby, decide (aby.toNat / 256 ≠ a.toNat / 256)) s

/-- The modes that read a pointer (R150, R160, R161, R162): the pointer's low byte is at its address and its high byte at the
next address of the same page; izx adds X to the operand modulo 256 before, izy adds Y to the pointer's value after and
signals a page cross against that value. The pointer is read from memory; that the quirk holds for zero-page pointers too is the
spec's general knowledge. -/
def Obligations.PointerModes : Prop :=
  ∀ (s : State) (d lo hi : Byte) (a ptr next base : Addr),
    next.toNat = ptr.toNat / 256 * 256 + (ptr.toNat + 1) % 256 → base.toNat = 256 * hi.toNat + lo.toNat →
    s.byteAt ptr = some lo → s.byteAt next = some hi →
    (ptr = a → resolve (.ind a) s = .ok (base, false) s) ∧
    (ptr.toNat = (d.toNat + s.x.toNat) % 256 → resolve (.izx d) s = .ok (base, false) s) ∧
    (ptr.toNat = d.toNat → ∀ ea : Addr, ea.toNat = (base.toNat + s.y.toNat) % 65536 →
      resolve (.izy d) s = .ok (ea, decide (ea.toNat / 256 ≠ base.toNat / 256)) s)

/-- Pushes: each byte is written at 0x0100 | SP and SP is decremented modulo 256, inside the stack page (R90). The order is
the spec's decision D2. -/
def Obligations.StackPushes : Prop :=
  ∀ (s t : State) (bytes : List Byte), bytes.length ≤ 256 → pushAll bytes s = .ok () t → s.PushedTo bytes t

/-- As many pops after pushes give the bytes back in reverse and restore the stack pointer, from any stack pointer, wrapping
within the page (R90, R91, R92; decision D2 of the spec), on a platform whose stack page takes writes. -/
def Obligations.PopsUndoPushes : Prop :=
  ∀ (s t : State) (bytes : List Byte), bytes.length ≤ 256 → s.memoryWf = true →
    (∀ sp : Byte, s.writableAt (stackAddr sp) = true) → pushAll bytes s = .ok () t →
    ∃ u, popAll bytes.length t = .ok bytes.reverse u ∧ u = { t with sp := s.sp }

/-! ## The host's operations (20_memory.md, 70_reset_and_hazards.md) -/

/-- `map` gives the device every whole page from that of the first address to that of the last, and changes no other slot and
nothing else; an empty range changes nothing (R72). -/
def Obligations.MapReplacesWholePages : Prop :=
  ∀ (s : State) (d : Nat) (first last : Addr),
    (∀ page : Fin 256, (s.map d first last).slots.get page =
      if first.toNat / 256 ≤ page.val ∧ page.val ≤ last.toNat / 256 then some d else s.slots.get page) ∧
    s.map d first last = { s with slots := (s.map d first last).slots }

/-- Releasing a device makes every slot that holds it behave as empty and no other slot (R76, decision D29 of the spec); "reset all" empties every
tracked memory device and leaves the other memory devices, the slots and the core alone (R84, R414). -/
def Obligations.ReleaseAndResetAll : Prop :=
  ∀ (s : State) (d : Nat),
    (∀ a v, s.slots.get (pageOf a) = some d → busRead a (s.release d) = .ok 0 (s.release d) ∧
      busWrite a v (s.release d) = .ok () (s.release d)) ∧
    (∀ page, s.slots.get page ≠ some d → (s.release d).slotDevice page = s.slotDevice page) ∧
    s.release d = { s with devices := (s.release d).devices } ∧
    (∀ (kind : MemKind) (size : Nat) (cells : Memory),
      s.devices[d]? = some (some (Device.memory kind size cells)) →
      s.resetAllDevices.devices[d]? =
        some (some (Device.memory kind size (if kind = .tracked then [] else cells)))) ∧
    s.resetAllDevices = { s with devices := s.resetAllDevices.devices }

/-- Reset, for every draw of the values it leaves unspecified: SP is 0xFD, I and U are 1, `intr` is None, `halted` is 0, PC
is the little-endian word at 0xFFFC, the mapping is unchanged and no byte of memory changes (R410, R411, R49; the values are
decision D6 of the spec). -/
def Obligations.ResetLeaves : Prop :=
  ∀ (s t u : State) (draw : ResetDraw) (lo hi : Byte), busRead 0xFFFC s = .ok lo t → busRead 0xFFFD t = .ok hi u →
    ∃ p, s.cpuReset draw = .ok ()
      { u with a := draw.a, x := draw.x, y := draw.y, sp := 0xFD, p := p, pc := mkAddr hi lo, intr := .none,
               halted := false, cycles := draw.cycles } ∧
      getFlag .i p = true ∧ getFlag .u p = true ∧
      (∀ g ∈ [Flag.c, .z, .d, .b, .v, .n], getFlag g p = getFlag g draw.flags) ∧ s.ReadsTo u

/-! ## The whole machine -/

/-- The invariant holds of the one state `State.reset`: U reads as 1 (R37, R411) and the buffers are canonical. That state's
platform, one 64 KiB device, and its memory that lists nothing are the model's choices (log 4, log 5), and so are A, X, Y, six
flags and `cycles` (log 1 to 3), of which the invariant reads none; resets of other states are `InvariantKeptByHost`. -/
def Obligations.InvariantAtReset : Prop := State.reset.Inv

/-- Every step keeps the invariant: U reads as 1 (R37), and every memory device's buffer stays in canonical form below its
size. -/
def Obligations.InvariantKeptByStep : Prop :=
  ∀ s t : State, s.Inv → step s = .next t → t.Inv

/-- Construction has it for every draw, and every host operation keeps it, in either phase of a session, when the devices it
adds are well formed (R37, R412, R420; the two phases are log 23, a host's step of a halted core is log 7). -/
def Obligations.InvariantKeptByHost : Prop :=
  (∀ w : ResetDraw, (Session.start w).state.Inv) ∧
  ∀ (h k : Session) (op : HostOp), h.state.Inv → (∀ dev, op = .addDevice dev → dev.wf = true) →
    applyHost op h = .next k → k.state.Inv

/-- On a platform whose memory devices cover the pages they are mapped on, every instruction completes, every step of a core
that is not halted completes, and the platform stays so (R12, R83, R385). -/
def Obligations.NoFaultOnCoveredPlatform : Prop :=
  ∀ s : State, s.Covered →
    (∀ i : Instr, ∃ t, exec i s = .next t ∧ t.Covered) ∧
    (s.halted = false → ∃ t, step s = .next t ∧ t.Covered)

/-- No instruction traps: the only thing an instruction can end in besides a next state is the platform fault, at an address
that is out of range of the device mapped there (R12, R83, R117, R385). -/
def Obligations.OnlyOutOfRangeFaults : Prop :=
  ∀ (i : Instr) (s : State),
    (∀ r, exec i s ≠ .refused r) ∧
    (∀ r, exec i s = .fault r → ∃ a, r = .deviceOutOfRange a ∧ s.inRange a = false)

/-- No step reads the cycle counter (R14, R42): a state with another count steps the same way, and its count stays as far
apart. -/
def Obligations.StepIgnoresCycles : Prop :=
  ∀ (s : State) (n : Nat),
    (∀ t, step s = .next t → step (s.addCycles n) = .next (t.addCycles n)) ∧
    (∀ r, step s = .fault r → step (s.addCycles n) = .fault r)

/-- Nothing reads the Break bit of P (R38): two states that differ in it only step to states that differ in it at most, and
fault alike. -/
def Obligations.BreakFlagIsInert : Prop :=
  ∀ (s : State) (b : Bool),
    (∀ t, step s = .next t → ∃ b', step (s.setP (putFlag .b b s.p)) = .next (t.setP (putFlag .b b' t.p))) ∧
    (∀ r, step s = .fault r → step (s.setP (putFlag .b b s.p)) = .fault r)

/-- No step changes the bus: every page slot holds the device it held, a released device stays released, a memory device
keeps its flavour and size, and a read-only one its bytes (R44, R45, R81); a device that is no memory device keeps its
identity and its write capability, and only its inner state may change (R80; log 13). -/
def Obligations.StepKeepsPlatform : Prop :=
  ∀ s t : State, step s = .next t →
    t.slots = s.slots ∧ t.devices.length = s.devices.length ∧
    (∀ d : Nat, s.devices[d]? = some none → t.devices[d]? = some none) ∧
    (∀ (d : Nat) (kind : MemKind) (size : Nat) (cells : Memory),
      s.devices[d]? = some (some (Device.memory kind size cells)) →
      ∃ cells', t.devices[d]? = some (some (Device.memory kind size cells')) ∧ (kind = .readOnly → cells' = cells)) ∧
    (∀ (d id : Nat) (writable : Bool) (inner : Nat), s.devices[d]? = some (some (.foreign id writable inner)) →
      ∃ inner', t.devices[d]? = some (some (.foreign id writable inner')))

/-- Who may write what (R31 to R34, R37 to R41): an instruction leaves a register, a flag, the interrupt latch and the halt
latch alone unless its mnemonic is in the writer table of that register or flag, or it is KIL; PLP and RTI leave U set. The tables follow
rules that are in part decisions of the spec (D8, D14, D15, D25). -/
def Obligations.WritersOfRegistersAndFlags : Prop :=
  ∀ (i : Instr) (s t : State), exec i s = .next t →
    (i.mnemonic ∉ registerWriters .a → t.a = s.a) ∧
    (i.mnemonic ∉ registerWriters .x → t.x = s.x) ∧
    (i.mnemonic ∉ registerWriters .y → t.y = s.y) ∧
    (i.mnemonic ∉ registerWriters .sp → t.sp = s.sp) ∧
    (∀ g, i.mnemonic ∉ flagWriters g → getFlag g t.p = getFlag g s.p) ∧
    t.intr = s.intr ∧
    (i.mnemonic ≠ .kil → t.halted = s.halted) ∧
    (getFlag .u s.p = true → getFlag .u t.p = true)

/-- PC and cycles of every instruction that is no branch (R35, R120, R142): PC moves by the table's length unless the
instruction is a control transfer, and the cycles are the table's base plus exactly one when the resolver's page-cross flag
and the table's sensitivity flag are both set. -/
def Obligations.PcAndCycles : Prop :=
  ∀ (i : Instr) (s t : State), exec i s = .next t → i.entry.mode ≠ .rel →
    (i.mnemonic ∉ [Mnemonic.jmp, .jsr, .rts, .rti, .brk] → t.pc = s.pc + BitVec.ofNat 16 i.entry.length) ∧
    (i.memOperand = none → t.cycles = s.cycles + i.entry.base) ∧
    (∀ ea xa u, i.Addresses s ea xa u → t.cycles = s.cycles + i.entry.base + (xa && i.entry.xb).toNat)

/-- Which instructions are cycle sensitive and which modes can signal a page cross (R166, R167): the sensitivity flag of the
table is set exactly for the listed mnemonics (for NOP, the undocumented opcodes; the list is decision D16 of the spec), and only
abx, aby and izy signal. -/
def Obligations.PageCrossSources : Prop :=
  (∀ i : Instr, i.wellFormed = true → (i.entry.xb = true ↔
    i.mnemonic ∈ [Mnemonic.lda, .ldx, .ldy, .adc, .sbc, .and, .ora, .eor, .cmp, .lax, .las] ∨
      (i.mnemonic = .nop ∧ i ≠ .nop))) ∧
  (∀ (i : Instr) (s t : State) (ea : Addr), i.Addresses s ea true t → i.entry.mode ∈ [Mode.abx, .aby, .izy])

/-- Return undoes entry, on a platform whose stack page takes writes: RTI right after BRK gives PC0 + 2, and P with Break and
Unused set; RTI right after an NMI or IRQ service gives the old PC, and P with Break clear and Unused set; SP is restored
(R284, R376, R382; decisions D2, D7, D8 and D26 of the spec). -/
def Obligations.ReturnUndoesEntry : Prop :=
  ∀ (s t u : State), s.memoryWf = true → (∀ sp : Byte, s.writableAt (stackAddr sp) = true) →
    (∀ pad, exec (.brk pad) s = .next t → exec .rti t = .next u →
      u.pc = s.pc + 2 ∧ u.p = s.p ||| 0x30 ∧ u.sp = s.sp) ∧
    (s.halted = false → s.intr = .nmi → step s = .next t → exec .rti t = .next u →
      u.pc = s.pc ∧ u.p = (s.p &&& 0xEF) ||| 0x20 ∧ u.sp = s.sp) ∧
    (s.halted = false → s.intr = .irq → getFlag .i s.p = false → step s = .next t → exec .rti t = .next u →
      u.pc = s.pc ∧ u.p = (s.p &&& 0xEF) ||| 0x20 ∧ u.sp = s.sp)

/-- RTS right after JSR comes back to the instruction after the JSR, on a platform whose stack page takes writes: the stack
pointer is restored, no other register, flag, latch or page slot has changed, 12 cycles have passed, and every byte of memory
outside the two stack bytes that JSR pushed to is as before (R280, R281; decisions D2 and D19 of the spec). -/
def Obligations.RtsUndoesJsr : Prop :=
  ∀ (s : State) (a : Addr), s.memoryWf = true → (∀ sp : Byte, s.writableAt (stackAddr sp) = true) →
    ∃ t u, exec (.jsrAbs a) s = .next t ∧ t.pc = a ∧ exec .rts t = .next u ∧
      u = { s with pc := s.pc + 3, cycles := s.cycles + 12, devices := u.devices } ∧
      ∀ b : Addr, b ≠ pushTarget s.sp 0 → b ≠ pushTarget s.sp 1 → u.byteAt b = s.byteAt b

/-- Construction and the first reset. A fresh core has all slots empty and no device (R44). That its registers are what a
reset on that empty bus leaves, for every draw, is the model's choice (log 23): R412 (decision D6 of the spec) speaks of a reset
performed once the map calls are finished, and says nothing of the registers before it. While the platform is being built the
host's call of `step` stops by name, and a reset that succeeds ends the building; so no run that gets past a step has that step
before its first reset, which is R412's "a model has no step before that first reset". The two phases and the name of the stop
are the model's form of it (log 23). -/
def Obligations.NoStepBeforeFirstReset : Prop :=
  (∀ w : ResetDraw, ∃ s, Session.start w = .building s ∧ (∀ page, s.slots.get page = none) ∧ s.devices = [] ∧
    s.sp = 0xFD ∧ getFlag .i s.p = true ∧ s.intr = .none ∧ s.halted = false ∧ s.cpuReset w = .ok () s) ∧
  (∀ s : State, applyHost .step (.building s) = .fault .notReset) ∧
  (∀ (s t : State) (w : ResetDraw), s.cpuReset w = .ok () t →
    applyHost (.reset w) (.building s) = .next (.running t)) ∧
  (∀ (before after : List HostOp) (s : State) (k : Session),
    runHost (before ++ .step :: after) (.building s) = .next k → ∃ w, HostOp.reset w ∈ before)
end

