-- ==== Sys2Proof/Laws/State.lean ====
section
/-! SUPPORT. One lemma for each field under each update of State, all by rfl. -/

namespace Sys2Proof.Machine

section

variable (v : Byte) (s : State)

@[simp] theorem State.setA_a : (s.setA v).a = v := rfl
@[simp] theorem State.setA_x : (s.setA v).x = s.x := rfl
@[simp] theorem State.setA_y : (s.setA v).y = s.y := rfl
@[simp] theorem State.setA_sp : (s.setA v).sp = s.sp := rfl
@[simp] theorem State.setA_p : (s.setA v).p = s.p := rfl
@[simp] theorem State.setA_pc : (s.setA v).pc = s.pc := rfl
@[simp] theorem State.setA_intr : (s.setA v).intr = s.intr := rfl
@[simp] theorem State.setA_halted : (s.setA v).halted = s.halted := rfl
@[simp] theorem State.setA_cycles : (s.setA v).cycles = s.cycles := rfl
@[simp] theorem State.setA_slots : (s.setA v).slots = s.slots := rfl
@[simp] theorem State.setA_devices : (s.setA v).devices = s.devices := rfl

end

section

variable (v : Byte) (s : State)

@[simp] theorem State.setX_a : (s.setX v).a = s.a := rfl
@[simp] theorem State.setX_x : (s.setX v).x = v := rfl
@[simp] theorem State.setX_y : (s.setX v).y = s.y := rfl
@[simp] theorem State.setX_sp : (s.setX v).sp = s.sp := rfl
@[simp] theorem State.setX_p : (s.setX v).p = s.p := rfl
@[simp] theorem State.setX_pc : (s.setX v).pc = s.pc := rfl
@[simp] theorem State.setX_intr : (s.setX v).intr = s.intr := rfl
@[simp] theorem State.setX_halted : (s.setX v).halted = s.halted := rfl
@[simp] theorem State.setX_cycles : (s.setX v).cycles = s.cycles := rfl
@[simp] theorem State.setX_slots : (s.setX v).slots = s.slots := rfl
@[simp] theorem State.setX_devices : (s.setX v).devices = s.devices := rfl

end

section

variable (v : Byte) (s : State)

@[simp] theorem State.setY_a : (s.setY v).a = s.a := rfl
@[simp] theorem State.setY_x : (s.setY v).x = s.x := rfl
@[simp] theorem State.setY_y : (s.setY v).y = v := rfl
@[simp] theorem State.setY_sp : (s.setY v).sp = s.sp := rfl
@[simp] theorem State.setY_p : (s.setY v).p = s.p := rfl
@[simp] theorem State.setY_pc : (s.setY v).pc = s.pc := rfl
@[simp] theorem State.setY_intr : (s.setY v).intr = s.intr := rfl
@[simp] theorem State.setY_halted : (s.setY v).halted = s.halted := rfl
@[simp] theorem State.setY_cycles : (s.setY v).cycles = s.cycles := rfl
@[simp] theorem State.setY_slots : (s.setY v).slots = s.slots := rfl
@[simp] theorem State.setY_devices : (s.setY v).devices = s.devices := rfl

end

section

variable (v : Byte) (s : State)

@[simp] theorem State.setSP_a : (s.setSP v).a = s.a := rfl
@[simp] theorem State.setSP_x : (s.setSP v).x = s.x := rfl
@[simp] theorem State.setSP_y : (s.setSP v).y = s.y := rfl
@[simp] theorem State.setSP_sp : (s.setSP v).sp = v := rfl
@[simp] theorem State.setSP_p : (s.setSP v).p = s.p := rfl
@[simp] theorem State.setSP_pc : (s.setSP v).pc = s.pc := rfl
@[simp] theorem State.setSP_intr : (s.setSP v).intr = s.intr := rfl
@[simp] theorem State.setSP_halted : (s.setSP v).halted = s.halted := rfl
@[simp] theorem State.setSP_cycles : (s.setSP v).cycles = s.cycles := rfl
@[simp] theorem State.setSP_slots : (s.setSP v).slots = s.slots := rfl
@[simp] theorem State.setSP_devices : (s.setSP v).devices = s.devices := rfl

end

section

variable (v : Byte) (s : State)

@[simp] theorem State.setP_a : (s.setP v).a = s.a := rfl
@[simp] theorem State.setP_x : (s.setP v).x = s.x := rfl
@[simp] theorem State.setP_y : (s.setP v).y = s.y := rfl
@[simp] theorem State.setP_sp : (s.setP v).sp = s.sp := rfl
@[simp] theorem State.setP_p : (s.setP v).p = v := rfl
@[simp] theorem State.setP_pc : (s.setP v).pc = s.pc := rfl
@[simp] theorem State.setP_intr : (s.setP v).intr = s.intr := rfl
@[simp] theorem State.setP_halted : (s.setP v).halted = s.halted := rfl
@[simp] theorem State.setP_cycles : (s.setP v).cycles = s.cycles := rfl
@[simp] theorem State.setP_slots : (s.setP v).slots = s.slots := rfl
@[simp] theorem State.setP_devices : (s.setP v).devices = s.devices := rfl

end

section

variable (v : Addr) (s : State)

@[simp] theorem State.setPC_a : (s.setPC v).a = s.a := rfl
@[simp] theorem State.setPC_x : (s.setPC v).x = s.x := rfl
@[simp] theorem State.setPC_y : (s.setPC v).y = s.y := rfl
@[simp] theorem State.setPC_sp : (s.setPC v).sp = s.sp := rfl
@[simp] theorem State.setPC_p : (s.setPC v).p = s.p := rfl
@[simp] theorem State.setPC_pc : (s.setPC v).pc = v := rfl
@[simp] theorem State.setPC_intr : (s.setPC v).intr = s.intr := rfl
@[simp] theorem State.setPC_halted : (s.setPC v).halted = s.halted := rfl
@[simp] theorem State.setPC_cycles : (s.setPC v).cycles = s.cycles := rfl
@[simp] theorem State.setPC_slots : (s.setPC v).slots = s.slots := rfl
@[simp] theorem State.setPC_devices : (s.setPC v).devices = s.devices := rfl

end

section

variable (v : Intr) (s : State)

@[simp] theorem State.setIntr_a : (s.setIntr v).a = s.a := rfl
@[simp] theorem State.setIntr_x : (s.setIntr v).x = s.x := rfl
@[simp] theorem State.setIntr_y : (s.setIntr v).y = s.y := rfl
@[simp] theorem State.setIntr_sp : (s.setIntr v).sp = s.sp := rfl
@[simp] theorem State.setIntr_p : (s.setIntr v).p = s.p := rfl
@[simp] theorem State.setIntr_pc : (s.setIntr v).pc = s.pc := rfl
@[simp] theorem State.setIntr_intr : (s.setIntr v).intr = v := rfl
@[simp] theorem State.setIntr_halted : (s.setIntr v).halted = s.halted := rfl
@[simp] theorem State.setIntr_cycles : (s.setIntr v).cycles = s.cycles := rfl
@[simp] theorem State.setIntr_slots : (s.setIntr v).slots = s.slots := rfl
@[simp] theorem State.setIntr_devices : (s.setIntr v).devices = s.devices := rfl

end

section

variable (v : Bool) (s : State)

@[simp] theorem State.setHalted_a : (s.setHalted v).a = s.a := rfl
@[simp] theorem State.setHalted_x : (s.setHalted v).x = s.x := rfl
@[simp] theorem State.setHalted_y : (s.setHalted v).y = s.y := rfl
@[simp] theorem State.setHalted_sp : (s.setHalted v).sp = s.sp := rfl
@[simp] theorem State.setHalted_p : (s.setHalted v).p = s.p := rfl
@[simp] theorem State.setHalted_pc : (s.setHalted v).pc = s.pc := rfl
@[simp] theorem State.setHalted_intr : (s.setHalted v).intr = s.intr := rfl
@[simp] theorem State.setHalted_halted : (s.setHalted v).halted = v := rfl
@[simp] theorem State.setHalted_cycles : (s.setHalted v).cycles = s.cycles := rfl
@[simp] theorem State.setHalted_slots : (s.setHalted v).slots = s.slots := rfl
@[simp] theorem State.setHalted_devices : (s.setHalted v).devices = s.devices := rfl

end

section

variable (v : Nat) (s : State)

@[simp] theorem State.addCycles_a : (s.addCycles v).a = s.a := rfl
@[simp] theorem State.addCycles_x : (s.addCycles v).x = s.x := rfl
@[simp] theorem State.addCycles_y : (s.addCycles v).y = s.y := rfl
@[simp] theorem State.addCycles_sp : (s.addCycles v).sp = s.sp := rfl
@[simp] theorem State.addCycles_p : (s.addCycles v).p = s.p := rfl
@[simp] theorem State.addCycles_pc : (s.addCycles v).pc = s.pc := rfl
@[simp] theorem State.addCycles_intr : (s.addCycles v).intr = s.intr := rfl
@[simp] theorem State.addCycles_halted : (s.addCycles v).halted = s.halted := rfl
@[simp] theorem State.addCycles_cycles : (s.addCycles v).cycles = s.cycles + v := rfl
@[simp] theorem State.addCycles_slots : (s.addCycles v).slots = s.slots := rfl
@[simp] theorem State.addCycles_devices : (s.addCycles v).devices = s.devices := rfl

end

section

variable (v : Vector (Option Nat) 256) (s : State)

@[simp] theorem State.setSlots_a : (s.setSlots v).a = s.a := rfl
@[simp] theorem State.setSlots_x : (s.setSlots v).x = s.x := rfl
@[simp] theorem State.setSlots_y : (s.setSlots v).y = s.y := rfl
@[simp] theorem State.setSlots_sp : (s.setSlots v).sp = s.sp := rfl
@[simp] theorem State.setSlots_p : (s.setSlots v).p = s.p := rfl
@[simp] theorem State.setSlots_pc : (s.setSlots v).pc = s.pc := rfl
@[simp] theorem State.setSlots_intr : (s.setSlots v).intr = s.intr := rfl
@[simp] theorem State.setSlots_halted : (s.setSlots v).halted = s.halted := rfl
@[simp] theorem State.setSlots_cycles : (s.setSlots v).cycles = s.cycles := rfl
@[simp] theorem State.setSlots_slots : (s.setSlots v).slots = v := rfl
@[simp] theorem State.setSlots_devices : (s.setSlots v).devices = s.devices := rfl

end

section

variable (v : List (Option Device)) (s : State)

@[simp] theorem State.setDevices_a : (s.setDevices v).a = s.a := rfl
@[simp] theorem State.setDevices_x : (s.setDevices v).x = s.x := rfl
@[simp] theorem State.setDevices_y : (s.setDevices v).y = s.y := rfl
@[simp] theorem State.setDevices_sp : (s.setDevices v).sp = s.sp := rfl
@[simp] theorem State.setDevices_p : (s.setDevices v).p = s.p := rfl
@[simp] theorem State.setDevices_pc : (s.setDevices v).pc = s.pc := rfl
@[simp] theorem State.setDevices_intr : (s.setDevices v).intr = s.intr := rfl
@[simp] theorem State.setDevices_halted : (s.setDevices v).halted = s.halted := rfl
@[simp] theorem State.setDevices_cycles : (s.setDevices v).cycles = s.cycles := rfl
@[simp] theorem State.setDevices_slots : (s.setDevices v).slots = s.slots := rfl
@[simp] theorem State.setDevices_devices : (s.setDevices v).devices = v := rfl

end

section

variable (d : Nat) (dev : Device) (s : State)

@[simp] theorem State.putDevice_a : (s.putDevice d dev).a = s.a := rfl
@[simp] theorem State.putDevice_x : (s.putDevice d dev).x = s.x := rfl
@[simp] theorem State.putDevice_y : (s.putDevice d dev).y = s.y := rfl
@[simp] theorem State.putDevice_sp : (s.putDevice d dev).sp = s.sp := rfl
@[simp] theorem State.putDevice_p : (s.putDevice d dev).p = s.p := rfl
@[simp] theorem State.putDevice_pc : (s.putDevice d dev).pc = s.pc := rfl
@[simp] theorem State.putDevice_intr : (s.putDevice d dev).intr = s.intr := rfl
@[simp] theorem State.putDevice_halted : (s.putDevice d dev).halted = s.halted := rfl
@[simp] theorem State.putDevice_cycles : (s.putDevice d dev).cycles = s.cycles := rfl
@[simp] theorem State.putDevice_slots : (s.putDevice d dev).slots = s.slots := rfl
@[simp] theorem State.putDevice_devices : (s.putDevice d dev).devices = s.devices.set d (some dev) := rfl

end

/-! ## Reset (70_reset_and_hazards.md R411) -/

/-- Reset memory is in canonical form. -/
theorem reset_memoryWf : State.reset.memoryWf = true := by decide

end Sys2Proof.Machine
end

