-- ==== Sys2Proof/Laws/Memory.lean ====
section
/-! SUPPORT. The laws of a memory device's buffer: read after write, and that a write keeps the canonical form. -/

namespace Sys2Proof.Machine

theorem Memory.wf_cons {k : Nat} {w : Byte} {m : Memory} :
    Memory.wf ((k, w) :: m) = true ↔ w ≠ 0 ∧ (∀ c ∈ m, k < c.1) ∧ Memory.wf m = true := by
  simp [Memory.wf, and_assoc]

/-- Every entry of a written buffer is the stored one or an old one. -/
theorem Memory.mem_write {m : Memory} {a : Nat} {v : Byte} {c : Host.Cell} (h : c ∈ Memory.write m a v) :
    c = (a, v) ∨ c ∈ m := by
  induction m with
  | nil => unfold Memory.write at h; split at h <;> simp_all
  | cons kw m ih =>
    obtain ⟨k, w⟩ := kw
    unfold Memory.write at h
    split at h
    · split at h <;> simp_all
    · split at h
      · split at h
        · exact .inr (List.mem_cons_of_mem _ h)
        · rcases List.mem_cons.1 h with h | h
          · subst_vars; exact .inl rfl
          · exact .inr (List.mem_cons_of_mem _ h)
      · rcases List.mem_cons.1 h with h | h
        · simp [h]
        · rcases ih h with h | h <;> simp [h]

/-- A write keeps the canonical form. -/
theorem Memory.write_wf {m : Memory} (h : Memory.wf m = true) (a : Nat) (v : Byte) :
    Memory.wf (Memory.write m a v) = true := by
  induction m with
  | nil => unfold Memory.write; split <;> simp_all [Memory.wf]
  | cons kw m ih =>
    obtain ⟨k, w⟩ := kw
    obtain ⟨hw, hk, hm⟩ := Memory.wf_cons.1 h
    unfold Memory.write
    split
    · split
      · exact h
      · refine Memory.wf_cons.2 ⟨‹_›, ?_, h⟩
        intro c hc
        rcases List.mem_cons.1 hc with rfl | hc
        · assumption
        · have := hk c hc; omega
    · split
      · split
        · exact hm
        · subst_vars; exact Memory.wf_cons.2 ⟨‹_›, hk, hm⟩
      · refine Memory.wf_cons.2 ⟨hw, ?_, ih hm⟩
        intro c hc
        rcases Memory.mem_write hc with rfl | hc
        · simp only; omega
        · exact hk c hc

/-- A write at an address below a bound keeps every address below it. -/
theorem Memory.write_bound {m : Memory} {size a : Nat} (h : ∀ c ∈ m, c.1 < size) (ha : a < size) (v : Byte) :
    ∀ c ∈ Memory.write m a v, c.1 < size := by
  intro c hc
  rcases Memory.mem_write hc with rfl | hc
  · exact ha
  · exact h c hc

/-- An address below every entry reads as unlisted. -/
theorem Memory.read_of_lt {m : Memory} {a : Nat} (h : ∀ c ∈ m, a < c.1) : Memory.read m a = 0 := by
  induction m with
  | nil => rfl
  | cons kw m ih =>
    obtain ⟨k, w⟩ := kw
    have hk : a < k := h (k, w) (by simp)
    rw [Memory.read, if_neg (by omega)]
    exact ih fun c hc => h c (by simp [hc])

/-- A read after a write to the same address gives the byte written. -/
theorem Memory.read_write_same {m : Memory} (h : Memory.wf m = true) (a : Nat) (v : Byte) :
    Memory.read (Memory.write m a v) a = v := by
  induction m with
  | nil => unfold Memory.write; split <;> simp_all [Memory.read]
  | cons kw m ih =>
    obtain ⟨k, w⟩ := kw
    obtain ⟨-, hk, hm⟩ := Memory.wf_cons.1 h
    unfold Memory.write
    split
    · split
      · subst_vars
        rw [Memory.read_of_lt]
        intro c hc
        rcases List.mem_cons.1 hc with rfl | hc
        · assumption
        · have := hk c hc; omega
      · simp [Memory.read]
    · split
      · split
        · subst_vars; exact Memory.read_of_lt hk
        · simp [Memory.read]
      · rw [Memory.read, if_neg (by omega), ih hm]

/-- A write leaves every other address alone. -/
theorem Memory.read_write_other (m : Memory) {a b : Nat} (v : Byte) (h : b ≠ a) :
    Memory.read (Memory.write m a v) b = Memory.read m b := by
  induction m with
  | nil => unfold Memory.write; split <;> simp [Memory.read, Ne.symm h]
  | cons kw m ih =>
    obtain ⟨k, w⟩ := kw
    unfold Memory.write
    split
    · split <;> simp [Memory.read, Ne.symm h]
    · split
      · have hk : k ≠ b := by omega
        split <;> simp [Memory.read, hk, Ne.symm h]
      · simp [Memory.read, ih]

end Sys2Proof.Machine
end

