-- ==== Sys2Proof/Laws/Bus.lean ====
section
/-! SUPPORT. What a bus read and a bus write can do, and what each leaves alone. -/

namespace Sys2Proof.Machine

/-! ## Two views of the devices -/

/-- A device without its contents: flavour and size, or identity and write capability. No step changes it. -/
def Device.shape : Device → Device
  | .memory kind size _ => .memory kind size []
  | .foreign id w _ => .foreign id w 0

/-- A device without what a read may change: the inner state of a device that is not a memory device. -/
def Device.still : Device → Device
  | .memory kind size cells => .memory kind size cells
  | .foreign id w _ => .foreign id w 0

/-- The shapes of all devices. -/
def State.shapes (s : State) : List (Option Device) := s.devices.map (Option.map Device.shape)

/-- All devices, as far as reads leave them alone. -/
def State.stills (s : State) : List (Option Device) := s.devices.map (Option.map Device.still)

@[simp] theorem Device.shape_still (dev : Device) : dev.still.shape = dev.shape := by cases dev <;> rfl

theorem shapes_of_stills {s t : State} (h : t.stills = s.stills) : t.shapes = s.shapes := by
  have key : ∀ u : State, u.stills.map (Option.map Device.shape) = u.shapes := by
    intro u
    simp only [State.stills, State.shapes, List.map_map]
    congr 1
    funext o
    cases o <;> simp
  rw [← key t, ← key s, h]

/-- The slot's device, seen through a view of devices. -/
def viewSlot (view : Device → Device) (s : State) (page : Fin 256) : Option (Nat × Device) :=
  (s.slotDevice page).map fun r => (r.1, view r.2)

theorem viewSlot_congr {view : Device → Device} {s t : State} (hs : t.slots = s.slots)
    (hd : t.devices.map (Option.map view) = s.devices.map (Option.map view)) (page : Fin 256) :
    viewSlot view t page = viewSlot view s page := by
  unfold viewSlot State.slotDevice
  rw [hs]
  cases s.slots.get page with
  | none => rfl
  | some d =>
    have h : (t.devices[d]?).map (Option.map view) = (s.devices[d]?).map (Option.map view) := by
      simpa using congrArg (fun l => l[d]?) hd
    rcases ht : t.devices[d]? with _ | _ | x <;> rcases hs' : s.devices[d]? with _ | _ | y <;> simp_all

/-- The byte an address holds depends on the slots and on what reads leave alone. -/
theorem byteAt_congr {s t : State} (hs : t.slots = s.slots) (hd : t.stills = s.stills) (a : Addr) :
    t.byteAt a = s.byteAt a := by
  have h := viewSlot_congr hs hd (pageOf a)
  unfold State.byteAt
  simp only [viewSlot] at h
  rcases ht : t.slotDevice (pageOf a) with _ | ⟨d, _ | _⟩ <;>
    rcases hs' : s.slotDevice (pageOf a) with _ | ⟨e, _ | _⟩ <;> simp_all [Device.still]

/-- Whether a page is covered depends on the slots and the shapes. -/
theorem pageCovered_congr {s t : State} (hs : t.slots = s.slots) (hd : t.shapes = s.shapes) (page : Fin 256) :
    t.pageCovered page = s.pageCovered page := by
  have h := viewSlot_congr hs hd page
  unfold State.pageCovered
  simp only [viewSlot] at h
  rcases ht : t.slotDevice page with _ | ⟨d, _ | _⟩ <;>
    rcases hs' : s.slotDevice page with _ | ⟨e, _ | _⟩ <;> simp_all [Device.shape]

theorem covered_congr {s t : State} (hs : t.slots = s.slots) (hd : t.shapes = s.shapes) :
    t.Covered ↔ s.Covered := by
  simp only [State.Covered, pageCovered_congr hs hd]

/-- Whether an address takes writes depends on the slots and the shapes. -/
theorem writableAt_congr {s t : State} (hs : t.slots = s.slots) (hd : t.shapes = s.shapes) (a : Addr) :
    t.writableAt a = s.writableAt a := by
  have h := viewSlot_congr hs hd (pageOf a)
  unfold State.writableAt
  simp only [viewSlot] at h
  rcases ht : t.slotDevice (pageOf a) with _ | ⟨d, _ | _⟩ <;>
    rcases hs' : s.slotDevice (pageOf a) with _ | ⟨e, _ | _⟩ <;> simp_all [Device.shape]

theorem Device.wf_still (dev : Device) : dev.still.wf = dev.wf := by cases dev <;> rfl

/-- Canonical form depends on what reads leave alone. -/
theorem memoryWf_congr {s t : State} (hd : t.stills = s.stills) : t.memoryWf = s.memoryWf := by
  have key : ∀ u : State, u.memoryWf = u.stills.all fun d => match d with
      | some dev => dev.wf
      | none => true := by
    intro u
    simp only [State.memoryWf, State.stills, List.all_map]
    congr 1
    funext o
    cases o <;> simp [Device.wf_still]
  rw [key, key, hd]

/-! ## Slots and devices -/

/-- A slot's device is present under its number. -/
theorem slotDevice_some {s : State} {page : Fin 256} {d : Nat} {dev : Device} :
    s.slotDevice page = some (d, dev) ↔ s.slots.get page = some d ∧ s.devices[d]? = some (some dev) := by
  unfold State.slotDevice
  rcases s.slots.get page with _ | e
  · simp
  · rcases h : s.devices[e]? with _ | _ | x <;> simp only <;> constructor <;> rintro h' <;> simp_all

@[simp] theorem slotDevice_setDevices_slots (s : State) (v : Vector (Option Nat) 256) (page : Fin 256) :
    (s.setSlots v).slots.get page = v.get page := rfl

theorem list_set_same {α : Type} {l : List α} {n : Nat} {x : α} (h : l[n]? = some x) : l.set n x = l := by
  obtain ⟨hn, rfl⟩ := List.getElem?_eq_some_iff.1 h
  simp

/-- Replacing a device by one that a view cannot tell from it leaves the view. -/
theorem putDevice_view (view : Device → Device) {s : State} {d : Nat} {dev dev' : Device}
    (h : s.devices[d]? = some (some dev)) (hs : view dev' = view dev) :
    (s.putDevice d dev').devices.map (Option.map view) = s.devices.map (Option.map view) := by
  rw [State.putDevice_devices, List.map_set, Option.map_some, hs]
  exact list_set_same (by simp [h])

/-- After replacing device `d`, a slot shows the new device where it showed the old one and is unchanged elsewhere. -/
theorem slotDevice_putDevice {s : State} {d : Nat} {dev dev' : Device} (h : s.devices[d]? = some (some dev))
    (page : Fin 256) :
    (s.putDevice d dev').slotDevice page = (s.slotDevice page).map fun r => if r.1 = d then (d, dev') else r := by
  have hd : d < s.devices.length := (List.getElem?_eq_some_iff.1 h).1
  unfold State.slotDevice
  rw [State.putDevice_slots, State.putDevice_devices]
  rcases s.slots.get page with _ | e
  · rfl
  · simp only [List.getElem?_set]
    by_cases he : d = e
    · subst he
      have hg : s.devices[d] = some dev := (List.getElem?_eq_some_iff.1 h).2
      simp [hd, hg]
    · simp only [he, if_false]
      rcases s.devices[e]? with _ | _ | x <;> simp [Ne.symm he]

/-! ## The bus -/

/-- Everything a bus read can do. -/
theorem busRead_cases {a : Addr} {s t : State} {v : Byte} (h : busRead a s = .ok v t) :
    (s.slotDevice (pageOf a) = none ∧ v = 0 ∧ t = s) ∨
    (∃ d kind size cells, s.slotDevice (pageOf a) = some (d, .memory kind size cells) ∧ a.toNat < size ∧
      v = Memory.read cells a.toNat ∧ t = s) ∨
    (∃ d id w inner, s.slotDevice (pageOf a) = some (d, .foreign id w inner) ∧
      v = (Config.deviceRead id inner a).1 ∧
      t = s.putDevice d (.foreign id w (Config.deviceRead id inner a).2)) := by
  unfold busRead at h
  rcases hs : s.slotDevice (pageOf a) with _ | ⟨d, ⟨kind, size, cells⟩ | ⟨id, w, inner⟩⟩ <;> simp only [hs] at h
  · cases h; exact .inl ⟨rfl, rfl, rfl⟩
  · split at h
    · cases h; exact .inr (.inl ⟨d, kind, size, cells, rfl, ‹_›, rfl, rfl⟩)
    · cases h
  · cases h; exact .inr (.inr ⟨d, id, w, inner, rfl, rfl, rfl⟩)

/-- Everything a bus write can do. -/
theorem busWrite_cases {a : Addr} {v : Byte} {s t : State} {u : Unit} (h : busWrite a v s = .ok u t) :
    (s.writableAt a = false ∧ t = s ∧ ∀ d id w inner, s.slotDevice (pageOf a) = some (d, .foreign id w inner) → w = false) ∨
    (∃ d kind size cells, s.slotDevice (pageOf a) = some (d, .memory kind size cells) ∧ kind ≠ .readOnly ∧
      a.toNat < size ∧ t = s.putDevice d (.memory kind size (Memory.write cells a.toNat v))) ∨
    (∃ d id inner, s.slotDevice (pageOf a) = some (d, .foreign id true inner) ∧
      t = s.putDevice d (.foreign id true (Config.deviceWrite id inner a v))) := by
  unfold busWrite at h
  rcases hs : s.slotDevice (pageOf a) with _ | ⟨d, ⟨kind, size, cells⟩ | ⟨id, w, inner⟩⟩ <;> simp only [hs] at h
  · cases h; exact .inl ⟨by simp [State.writableAt, hs], rfl, by simp⟩
  · split at h
    · cases h; exact .inl ⟨by simp_all [State.writableAt], rfl, by simp⟩
    · split at h
      · cases h; exact .inr (.inl ⟨d, kind, size, cells, rfl, ‹_›, ‹_›, rfl⟩)
      · cases h
  · cases w
    · cases h; exact .inl ⟨by simp [State.writableAt, hs], rfl, by simp⟩
    · cases h; exact .inr (.inr ⟨d, id, inner, rfl, rfl⟩)

/-- A readable byte is what a bus read answers, and the read changes nothing. -/
theorem busRead_of_byteAt {a : Addr} {s : State} {v : Byte} (h : s.byteAt a = some v) : busRead a s = .ok v s := by
  unfold State.byteAt at h
  unfold busRead
  rcases hs : s.slotDevice (pageOf a) with _ | ⟨d, _ | _⟩ <;> simp_all

/-- What a bus read leaves alone: everything but the inner state of a device that is not a memory device. -/
theorem busRead_keeps {a : Addr} {s t : State} {v : Byte} (h : busRead a s = .ok v t) :
    t = s.setDevices t.devices ∧ t.stills = s.stills := by
  rcases busRead_cases h with ⟨-, -, rfl⟩ | ⟨d, k, n, c, -, -, -, rfl⟩ | ⟨d, id, w, inner, hs, -, rfl⟩
  · exact ⟨rfl, rfl⟩
  · exact ⟨rfl, rfl⟩
  · exact ⟨rfl, putDevice_view Device.still (slotDevice_some.1 hs).2 rfl⟩

/-- What a bus write leaves alone, whatever the platform: every register, the slots, the devices' shapes. -/
theorem busWrite_keeps {a : Addr} {v : Byte} {s t : State} {u : Unit} (h : busWrite a v s = .ok u t) :
    t = s.setDevices t.devices ∧ t.shapes = s.shapes := by
  rcases busWrite_cases h with ⟨-, rfl, -⟩ | ⟨d, k, n, c, hs, -, -, rfl⟩ | ⟨d, id, inner, hs, rfl⟩
  · exact ⟨rfl, rfl⟩
  · exact ⟨rfl, putDevice_view Device.shape (slotDevice_some.1 hs).2 rfl⟩
  · exact ⟨rfl, putDevice_view Device.shape (slotDevice_some.1 hs).2 rfl⟩

/-- A bus write leaves every byte but the one it addresses. -/
theorem busWrite_other {a b : Addr} {v : Byte} {s t : State} {u : Unit} (h : busWrite a v s = .ok u t) (hb : b ≠ a) :
    t.byteAt b = s.byteAt b := by
  have hn : b.toNat ≠ a.toNat := fun e => hb (BitVec.eq_of_toNat_eq e)
  rcases busWrite_cases h with ⟨-, rfl, -⟩ | ⟨d, k, n, c, hs, -, -, rfl⟩ | ⟨d, id, inner, hs, rfl⟩
  · rfl
  · unfold State.byteAt
    rw [slotDevice_putDevice (slotDevice_some.1 hs).2]
    rcases hb' : s.slotDevice (pageOf b) with _ | ⟨e, dev⟩
    · rfl
    · by_cases he : e = d
      · subst he
        have : dev = .memory k n c := by
          have h1 := (slotDevice_some.1 hb').2
          have h2 := (slotDevice_some.1 hs).2
          simp_all
        subst this
        simp [Memory.read_write_other c v hn]
      · simp [he]
  · refine byteAt_congr (s := s) (t := s.putDevice d (.foreign id true (Config.deviceWrite id inner a v))) rfl ?_ b
    exact putDevice_view Device.still (slotDevice_some.1 hs).2 rfl

/-- A writable address holds the byte just written, when the buffers are in canonical form. -/
theorem busWrite_same {a : Addr} {v : Byte} {s t : State} {u : Unit} (h : busWrite a v s = .ok u t)
    (hw : s.writableAt a = true) (hm : s.memoryWf = true) : t.byteAt a = some v := by
  rcases busWrite_cases h with ⟨hf, -⟩ | ⟨d, k, n, c, hs, -, hlt, rfl⟩ | ⟨d, id, inner, hs, rfl⟩
  · simp [hf] at hw
  · have hd := (slotDevice_some.1 hs).2
    have hc : Memory.wf c = true := by
      have := List.all_eq_true.1 hm (some (.memory k n c)) (List.mem_of_getElem? hd)
      simp only [Device.wf, Bool.and_eq_true] at this
      exact this.1
    unfold State.byteAt
    rw [slotDevice_putDevice hd, hs]
    simp [hlt, Memory.read_write_same hc]
  · simp [State.writableAt, hs] at hw

/-- An address that takes writes takes this one. -/
theorem busWrite_of_writable {a : Addr} {s : State} (h : s.writableAt a = true) (v : Byte) :
    ∃ t, busWrite a v s = .ok () t := by
  unfold State.writableAt at h
  unfold busWrite
  rcases hs : s.slotDevice (pageOf a) with _ | ⟨d, _ | _⟩ <;> simp_all

/-- A bus write keeps the buffers in canonical form. -/
theorem busWrite_memoryWf {a : Addr} {v : Byte} {s t : State} {u : Unit} (h : busWrite a v s = .ok u t)
    (hm : s.memoryWf = true) : t.memoryWf = true := by
  have put : ∀ (d : Nat) (dev : Device), dev.wf = true → (s.putDevice d dev).memoryWf = true := by
    intro d dev hd
    refine List.all_eq_true.2 fun o ho => ?_
    rcases List.mem_or_eq_of_mem_set ho with ho | rfl
    · exact List.all_eq_true.1 hm o ho
    · exact hd
  rcases busWrite_cases h with ⟨-, rfl, -⟩ | ⟨d, k, n, c, hs, -, hlt, rfl⟩ | ⟨d, id, inner, hs, rfl⟩
  · exact hm
  · have hd := (slotDevice_some.1 hs).2
    have hc := List.all_eq_true.1 hm (some (.memory k n c)) (List.mem_of_getElem? hd)
    simp only [Device.wf, Bool.and_eq_true, List.all_eq_true, decide_eq_true_eq] at hc
    refine put _ _ ?_
    simp only [Device.wf, Bool.and_eq_true, List.all_eq_true, decide_eq_true_eq]
    exact ⟨Memory.write_wf hc.1 _ _, Memory.write_bound hc.2 hlt v⟩
  · exact put _ _ rfl

theorem toNat_lt_page_end (a : Addr) : a.toNat < ((pageOf a).val + 1) * 256 := by
  have := a.isLt
  simp only [pageOf, hiByte, BitVec.toNat_setWidth, BitVec.toNat_ushiftRight, Nat.shiftRight_eq_div_pow]
  omega

/-- On a covered platform no bus read is out of range. -/
theorem busRead_covered {s : State} (h : s.Covered) (a : Addr) : ∃ v t, busRead a s = .ok v t := by
  have hp := h (pageOf a)
  have hlt := toNat_lt_page_end a
  unfold State.pageCovered at hp
  unfold busRead
  rcases hs : s.slotDevice (pageOf a) with _ | ⟨d, ⟨k, n, c⟩ | ⟨id, w, i⟩⟩ <;> simp only [hs] at hp ⊢
  · exact ⟨_, _, rfl⟩
  · have : a.toNat < n := by have := of_decide_eq_true hp; omega
    rw [if_pos this]
    exact ⟨_, _, rfl⟩
  · exact ⟨_, _, rfl⟩

/-- On a covered platform no bus write is out of range. -/
theorem busWrite_covered {s : State} (h : s.Covered) (a : Addr) (v : Byte) : ∃ t, busWrite a v s = .ok () t := by
  have hp := h (pageOf a)
  have hlt := toNat_lt_page_end a
  unfold State.pageCovered at hp
  unfold busWrite
  rcases hs : s.slotDevice (pageOf a) with _ | ⟨d, ⟨k, n, c⟩ | ⟨id, w, i⟩⟩ <;> simp only [hs] at hp ⊢
  · exact ⟨_, rfl⟩
  · have : a.toNat < n := by have := of_decide_eq_true hp; omega
    rw [if_pos this]
    split <;> exact ⟨_, rfl⟩
  · split <;> exact ⟨_, rfl⟩

end Sys2Proof.Machine
end

