-- ==== Sys2Proof/Laws/Flags.lean ====
section
/-! SUPPORT. What reading a flag gives after each flag computation. -/

namespace Sys2Proof.Machine

/-- Reading a flag after writing one: the written flag reads as written, every other as before. -/
@[simp] theorem getFlag_putFlag (f g : Flag) (on : Bool) (p : Byte) :
    getFlag g (putFlag f on p) = if g = f then on else getFlag g p := by
  cases f <;> cases g <;> cases on <;> simp [getFlag, putFlag, Flag.bit, Flag.mask]

/-- Two status bytes with the same flags are the same byte. -/
theorem status_ext {p q : Byte} (h : ∀ f, getFlag f p = getFlag f q) : p = q := by
  apply BitVec.eq_of_getLsbD_eq
  intro i hi
  have hb : ∃ f : Flag, f.bit = i := by
    have : i = 0 ∨ i = 1 ∨ i = 2 ∨ i = 3 ∨ i = 4 ∨ i = 5 ∨ i = 6 ∨ i = 7 := by omega
    rcases this with rfl | rfl | rfl | rfl | rfl | rfl | rfl | rfl
    exacts [⟨.c, rfl⟩, ⟨.z, rfl⟩, ⟨.i, rfl⟩, ⟨.d, rfl⟩, ⟨.b, rfl⟩, ⟨.u, rfl⟩, ⟨.v, rfl⟩, ⟨.n, rfl⟩]
  obtain ⟨f, rfl⟩ := hb
  exact h f

/-- `setZN` writes Z and N and nothing else (00_scope.md R11). -/
@[simp] theorem getFlag_setZN (g : Flag) (v p : Byte) :
    getFlag g (setZN v p) = if g = .n then v.msb else if g = .z then v == 0 else getFlag g p := by
  simp [setZN]

/-- The flags of a compare (41_load_transfer_logical.md R200). -/
@[simp] theorem getFlag_compareFlags (g : Flag) (r m p : Byte) :
    getFlag g (compareFlags r m p) =
      if g = .n then (r - m).msb else if g = .z then r - m == 0 else
      if g = .c then decide (m.toNat ≤ r.toNat) else getFlag g p := by
  simp [compareFlags]

@[simp] theorem getFlag_bitFlags (g : Flag) (a m p : Byte) :
    getFlag g (bitFlags a m p) =
      if g = .v then m.getLsbD 6 else if g = .n then m.getLsbD 7 else if g = .z then a &&& m == 0 else getFlag g p := by
  simp [bitFlags]

/-- Unused and Break are forced to 1 in the byte PHP and BRK push; the other flags are P's (R286, R376). -/
@[simp] theorem getFlag_pushedByInstruction (g : Flag) (p : Byte) :
    getFlag g (p ||| 0x30) = if g = .b ∨ g = .u then true else getFlag g p := by
  cases g <;> simp [getFlag, Flag.bit]

@[simp] theorem getFlag_pushedByInterrupt (g : Flag) (p : Byte) :
    getFlag g ((p &&& 0xEF) ||| 0x20) = if g = .b then false else if g = .u then true else getFlag g p := by
  cases g <;> simp [getFlag, Flag.bit]

@[simp] theorem getFlag_popped (g : Flag) (p : Byte) :
    getFlag g (p ||| 0x20) = if g = .u then true else getFlag g p := by
  cases g <;> simp [getFlag, Flag.bit]

/-! ## Which flags each computation writes -/

/-- Two status bytes that agree outside the listed flags. -/
def SameBut (w : List Flag) (p q : Byte) : Prop := ∀ g : Flag, g ∉ w → getFlag g q = getFlag g p

theorem SameBut.put (f : Flag) (on : Bool) (p : Byte) : SameBut [f] p (putFlag f on p) := by
  intro g hg; simp_all

theorem SameBut.zn (v p : Byte) : SameBut [.z, .n] p (setZN v p) := by
  intro g hg; cases g <;> simp_all

theorem SameBut.compare (r m p : Byte) : SameBut [.c, .z, .n] p (compareFlags r m p) := by
  intro g hg; cases g <;> simp_all

theorem SameBut.bit (a m p : Byte) : SameBut [.z, .n, .v] p (bitFlags a m p) := by
  intro g hg; cases g <;> simp_all

theorem SameBut.addBinary (a m : Byte) (c : Bool) (p : Byte) : SameBut [.c, .z, .v, .n] p (addBinary a m c p).2 := by
  intro g hg; cases g <;> simp_all [Machine.addBinary]

theorem SameBut.adc (a m p : Byte) : SameBut [.c, .z, .v, .n] p (addWithCarry a m p).2 := by
  unfold addWithCarry
  split
  · intro g hg; cases g <;> simp_all [addDecimal]
  · exact .addBinary _ _ _ _

theorem SameBut.sbc (a m p : Byte) : SameBut [.c, .z, .v, .n] p (subWithBorrow a m p).2 := by
  unfold subWithBorrow
  split <;> exact .addBinary _ _ _ _

theorem SameBut.asl (v p : Byte) : SameBut [.c, .z, .n] p (aslByte v p).2 := by
  intro g hg; cases g <;> simp_all [aslByte]

theorem SameBut.lsr (v p : Byte) : SameBut [.c, .z, .n] p (lsrByte v p).2 := by
  intro g hg; cases g <;> simp_all [lsrByte]

theorem SameBut.rol (v p : Byte) : SameBut [.c, .z, .n] p (rolByte v p).2 := by
  intro g hg; cases g <;> simp_all [rolByte]

theorem SameBut.ror (v p : Byte) : SameBut [.c, .z, .n] p (rorByte v p).2 := by
  intro g hg; cases g <;> simp_all [rorByte]

theorem SameBut.inc (v p : Byte) : SameBut [.z, .n] p (incByte v p).2 := .zn _ _

theorem SameBut.dec (v p : Byte) : SameBut [.z, .n] p (decByte v p).2 := .zn _ _

theorem SameBut.anc (a m p : Byte) : SameBut [.c, .z, .n] p (ancByte a m p).2 := by
  intro g hg; cases g <;> simp_all [ancByte]

theorem SameBut.alr (a m p : Byte) : SameBut [.c, .z, .n] p (alrByte a m p).2 := .lsr _ _

theorem SameBut.arr (a m p : Byte) : SameBut [.c, .z, .v, .n] p (arrByte a m p).2 := by
  intro g hg; cases g <;> simp_all [arrByte] <;> split <;> simp

end Sys2Proof.Machine
end

