-- ==== Sys2Proof/Laws/Ops.lean ====
section
/-! SUPPORT. What the shared operations can do: sequencing, pointers, the stack, interrupt entry and return. -/

namespace Sys2Proof.Machine

/-! ## Sequencing -/

theorem Res.bind_eq_ok {α β : Type} {r : Res α} {k : α → State → Res β} {v : β} {t : State} :
    r.bind k = .ok v t ↔ ∃ w s, r = .ok w s ∧ k w s = .ok v t := by
  cases r <;> simp [Res.bind]

@[simp] theorem Res.ok_bind {α β : Type} (v : α) (s : State) (k : α → State → Res β) : (Res.ok v s).bind k = k v s := rfl

@[simp] theorem Res.ok_toResult (u : Unit) (s : State) : (Res.ok u s).toResult = .next s := rfl

theorem Res.toResult_eq_next {r : Res Unit} {t : State} : r.toResult = .next t ↔ r = .ok () t := by
  cases r <;> simp [Res.toResult]

/-- A bus action never refuses. -/
theorem Res.toResult_ne_refused (r : Res Unit) (f : Refusal) : r.toResult ≠ .refused f := by
  cases r <;> simp [Res.toResult]

/-! ## Relations that every bus action and register write respects -/

/-- A relation on states that is kept along an instruction: reflexive, transitive, and respected by each bus access and each
register write; a write of register `r` needs `okR r`, a write of P needs `okP` of the old and the new status byte. -/
structure Respected (okR : Reg → Prop) (okP : Byte → Byte → Prop) (R : State → State → Prop) : Prop where
  refl : ∀ s, R s s
  trans : ∀ {s t u}, R s t → R t u → R s u
  read : ∀ {a s v t}, busRead a s = .ok v t → R s t
  write : ∀ {a v s t}, busWrite a v s = .ok () t → R s t
  setA : okR .a → ∀ v s, R s (s.setA v)
  setX : okR .x → ∀ v s, R s (s.setX v)
  setY : okR .y → ∀ v s, R s (s.setY v)
  setSP : okR .sp → ∀ v s, R s (s.setSP v)
  setPC : ∀ v s, R s (s.setPC v)
  addCycles : ∀ n s, R s (s.addCycles n)
  setP : ∀ {p s}, okP s.p p → R s (s.setP p)

section

variable {okR : Reg → Prop} {okP : Byte → Byte → Prop} {R : State → State → Prop} (hR : Respected okR okP R)

include hR

theorem Respected.readPtr {a b : Addr} {s t : State} (h : Machine.readPtr a s = .ok b t) : R s t := by
  obtain ⟨lo, s1, h1, h⟩ := Res.bind_eq_ok.1 h
  obtain ⟨hi, s2, h2, h⟩ := Res.bind_eq_ok.1 h
  cases h
  exact hR.trans (hR.read h1) (hR.read h2)

theorem Respected.readWord {a b : Addr} {s t : State} (h : Machine.readWord a s = .ok b t) : R s t := by
  obtain ⟨lo, s1, h1, h⟩ := Res.bind_eq_ok.1 h
  obtain ⟨hi, s2, h2, h⟩ := Res.bind_eq_ok.1 h
  cases h
  exact hR.trans (hR.read h1) (hR.read h2)

theorem Respected.push (hs : okR .sp) {v : Byte} {s t : State} {u : Unit} (h : Machine.push v s = .ok u t) : R s t := by
  obtain ⟨_, s1, h1, h⟩ := Res.bind_eq_ok.1 h
  cases h
  exact hR.trans (hR.write h1) (hR.setSP hs _ _)

theorem Respected.pop (hs : okR .sp) {v : Byte} {s t : State} (h : Machine.pop s = .ok v t) : R s t :=
  hR.trans (hR.setSP hs _ _) (hR.read h)

theorem Respected.pushAddr (hs : okR .sp) {a : Addr} {s t : State} {u : Unit} (h : Machine.pushAddr a s = .ok u t) : R s t := by
  obtain ⟨_, s1, h1, h⟩ := Res.bind_eq_ok.1 h
  exact hR.trans (hR.push hs h1) (hR.push hs h)

theorem Respected.popAddr (hs : okR .sp) {a : Addr} {s t : State} (h : Machine.popAddr s = .ok a t) : R s t := by
  obtain ⟨lo, s1, h1, h⟩ := Res.bind_eq_ok.1 h
  obtain ⟨hi, s2, h2, h⟩ := Res.bind_eq_ok.1 h
  cases h
  exact hR.trans (hR.pop hs h1) (hR.pop hs h2)

theorem Respected.resolve {m : MemOperand} {s t : State} {r : Addr × Bool} (h : Machine.resolve m s = .ok r t) :
    R s t := by
  cases m <;> simp only [Machine.resolve] at h
  all_goals first
    | (cases h; exact hR.refl _)
    | (obtain ⟨b, s1, h1, h⟩ := Res.bind_eq_ok.1 h; cases h; exact hR.readPtr h1)

theorem Respected.advance (base len : Nat) (s : State) : R s (s.advance base len) :=
  hR.trans (hR.addCycles _ _) (hR.setPC _ _)

theorem Respected.interruptEntry (hs : okR .sp) {a : Addr} {b : Bool} {s t : State} {u : Unit}
    (hI : ∀ p, okP p (putFlag .i true p)) (h : Machine.interruptEntry a b s = .ok u t) : R s t := by
  obtain ⟨_, s1, h1, h⟩ := Res.bind_eq_ok.1 h
  obtain ⟨_, s2, h2, h⟩ := Res.bind_eq_ok.1 h
  obtain ⟨v, s3, h3, h⟩ := Res.bind_eq_ok.1 h
  cases h
  exact hR.trans (hR.pushAddr hs h1) (hR.trans (hR.push hs h2) (hR.trans (hR.setP (hI _)) (hR.trans (hR.readWord h3) (hR.setPC _ _))))

theorem Respected.interruptReturn (hs : okR .sp) {s t : State} {u : Unit} (hI : ∀ p v, okP p (statusOfPopped v))
    (h : Machine.interruptReturn s = .ok u t) : R s t := by
  obtain ⟨v, s1, h1, h⟩ := Res.bind_eq_ok.1 h
  obtain ⟨b, s2, h2, h⟩ := Res.bind_eq_ok.1 h
  cases h
  exact hR.trans (hR.pop hs h1) (hR.trans (hR.setP (hI _ _)) (hR.trans (hR.popAddr hs h2) (hR.setPC _ _)))

/-! ## The shapes of instructions -/

theorem Respected.plain {base len : Nat} {h : State → Res Unit} {s t : State}
    (hh : ∀ s t, h s = .ok () t → R s t) (e : Machine.plain base len h s = .next t) : R s t :=
  hR.trans (hR.advance _ _ _) (hh _ _ (Res.toResult_eq_next.1 e))

theorem Respected.addressed {base : Nat} {xb : Bool} {m : MemOperand} {h : Addr → State → Res Unit} {s t : State}
    (hh : ∀ a s t, h a s = .ok () t → R s t) (e : Machine.addressed base xb m h s = .next t) : R s t := by
  obtain ⟨r, s1, h1, e⟩ := Res.bind_eq_ok.1 (Res.toResult_eq_next.1 e)
  obtain ⟨_, s2, h2, e⟩ := Res.bind_eq_ok.1 e
  cases e
  exact hR.trans (hR.resolve h1) (hR.trans (hR.advance _ _ _) (hR.trans (hh _ _ _ h2) (hR.addCycles _ _)))

theorem Respected.implied {base : Nat} {f : State → State} {s t : State}
    (hf : ∀ s, R s (f s)) (e : Machine.implied base f s = .next t) : R s t :=
  hR.plain (fun s t h => by cases h; exact hf s) e

theorem Respected.readImm {d : Byte} {f : Byte → State → State} {s t : State}
    (hf : ∀ v s, R s (f v s)) (e : Machine.readImm d f s = .next t) : R s t :=
  hR.plain (fun s t h => by cases h; exact hf d s) e

theorem Respected.readMem {base : Nat} {xb : Bool} {m : MemOperand} {f : Byte → State → State} {s t : State}
    (hf : ∀ v s, R s (f v s)) (e : Machine.readMem base xb m f s = .next t) : R s t :=
  hR.addressed (fun a s t h => by
    obtain ⟨v, s1, h1, h⟩ := Res.bind_eq_ok.1 h
    cases h
    exact hR.trans (hR.read h1) (hf v s1)) e

theorem Respected.storeMem {base : Nat} {m : MemOperand} {v : Addr → State → Byte} {s t : State}
    (e : Machine.storeMem base m v s = .next t) : R s t :=
  hR.addressed (fun _ _ _ h => hR.write h) e

theorem Respected.rmwAcc (ha : okR .a) {f : Byte → Byte → Byte × Byte} {s t : State} (hf : ∀ v p, okP p (f v p).2)
    (e : Machine.rmwAcc f s = .next t) : R s t :=
  hR.implied (fun _ => hR.trans (hR.setP (hf _ _)) (hR.setA ha _ _)) e

theorem Respected.rmwMem {base : Nat} {m : MemOperand} {f : Byte → Byte → Byte × Byte} {s t : State}
    (hf : ∀ v p, okP p (f v p).2) (e : Machine.rmwMem base m f s = .next t) : R s t :=
  hR.addressed (fun a s t h => by
    obtain ⟨v, s1, h1, h⟩ := Res.bind_eq_ok.1 h
    exact hR.trans (hR.read h1) (hR.trans (hR.setP (hf _ _)) (hR.write h))) e

theorem Respected.rmwThen {base : Nat} {m : MemOperand} {f : Byte → Byte → Byte × Byte} {g : Byte → State → State}
    {s t : State} (hf : ∀ v p, okP p (f v p).2) (hg : ∀ v s, R s (g v s))
    (e : Machine.rmwThen base m f g s = .next t) : R s t :=
  hR.addressed (fun a s t h => by
    obtain ⟨v, s1, h1, h⟩ := Res.bind_eq_ok.1 h
    obtain ⟨_, s2, h2, h⟩ := Res.bind_eq_ok.1 h
    cases h
    exact hR.trans (hR.read h1) (hR.trans (hR.setP (hf _ _)) (hR.trans (hR.write h2) (hg _ _)))) e

theorem Respected.branch {m : Mnemonic} {o : Int} {s t : State} (e : Machine.branch m o s = .next t) : R s t :=
  hR.plain (fun s t h => by
    cases h
    unfold branchBody
    split
    · exact hR.trans (hR.addCycles _ _) (hR.setPC _ _)
    · exact hR.refl _) e

end

end Sys2Proof.Machine
end

