-- ==== Sys2Proof/Laws/Commute.lean ====
section
/-! SUPPORT. Bus accesses depend on the slots and the devices alone, and change the devices alone; the shapes of instructions
once their bus accesses are known to succeed. -/

namespace Sys2Proof.Machine

/-! ## Bus accesses and the registers -/

/-- A bus answer seen from another state of the same bus: its value, with its devices put into that state. -/
def Res.seenFrom {α : Type} (t : State) : Res α → Res α
  | .ok v u => .ok v (t.setDevices u.devices)
  | .fault r => .fault r

@[simp] theorem Res.seenFrom_ok {α : Type} (t u : State) (v : α) :
    (Res.ok v u).seenFrom t = .ok v (t.setDevices u.devices) := rfl

@[simp] theorem Res.seenFrom_fault {α : Type} (t : State) (r : Fault) : (Res.fault r : Res α).seenFrom t = .fault r := rfl

theorem slotDevice_sameBus {s t : State} (hs : t.slots = s.slots) (hd : t.devices = s.devices) (page : Fin 256) :
    t.slotDevice page = s.slotDevice page := by
  unfold State.slotDevice; rw [hs, hd]

theorem State.setDevices_self {s t : State} (h : t.devices = s.devices) : t = t.setDevices s.devices := by
  rw [← h]; rfl

/-- A bus read from another state of the same bus. -/
theorem busRead_sameBus {s t : State} (hs : t.slots = s.slots) (hd : t.devices = s.devices) (a : Addr) :
    busRead a t = (busRead a s).seenFrom t := by
  unfold busRead
  rw [slotDevice_sameBus hs hd]
  rcases s.slotDevice (pageOf a) with _ | ⟨d, ⟨kind, size, cells⟩ | ⟨id, w, inner⟩⟩ <;> simp only
  · rw [Res.seenFrom_ok, ← State.setDevices_self hd]
  · split <;> simp only [Res.seenFrom_ok, Res.seenFrom_fault, ← State.setDevices_self hd]
  · simp [State.putDevice, hd]

/-- A bus write from another state of the same bus. -/
theorem busWrite_sameBus {s t : State} (hs : t.slots = s.slots) (hd : t.devices = s.devices) (a : Addr) (v : Byte) :
    busWrite a v t = (busWrite a v s).seenFrom t := by
  unfold busWrite
  rw [slotDevice_sameBus hs hd]
  rcases s.slotDevice (pageOf a) with _ | ⟨d, ⟨kind, size, cells⟩ | ⟨id, w, inner⟩⟩ <;> simp only
  · rw [Res.seenFrom_ok, ← State.setDevices_self hd]
  · split
    · rw [Res.seenFrom_ok, ← State.setDevices_self hd]
    · split <;> simp [State.putDevice, hd]
  · split
    · simp [State.putDevice, hd]
    · rw [Res.seenFrom_ok, ← State.setDevices_self hd]

/-- A successful read from another state of the same bus. -/
theorem busRead_ok_sameBus {s t u : State} {a : Addr} {v : Byte} (h : busRead a s = .ok v u) (hs : t.slots = s.slots)
    (hd : t.devices = s.devices) : busRead a t = .ok v (t.setDevices u.devices) := by
  rw [busRead_sameBus hs hd, h]; rfl

/-- A successful write from another state of the same bus. -/
theorem busWrite_ok_sameBus {s t u : State} {a : Addr} {v : Byte} (h : busWrite a v s = .ok () u) (hs : t.slots = s.slots)
    (hd : t.devices = s.devices) : busWrite a v t = .ok () (t.setDevices u.devices) := by
  rw [busWrite_sameBus hs hd, h]; rfl

/-- A pointer read from another state of the same bus. -/
theorem readPtr_sameBus {s t : State} (hs : t.slots = s.slots) (hd : t.devices = s.devices) (p : Addr) :
    readPtr p t = (readPtr p s).seenFrom t := by
  unfold readPtr
  rw [busRead_sameBus hs hd]
  rcases h1 : busRead p s with ⟨lo, s1⟩ | r
  · simp only [Res.seenFrom_ok, Res.ok_bind]
    have hk := (busRead_keeps h1).1
    have hs1 : (t.setDevices s1.devices).slots = s1.slots := by rw [hk]; exact hs
    rw [busRead_sameBus hs1 rfl]
    rcases busRead (nextInPage p) s1 with ⟨hi, s2⟩ | r <;> rfl
  · rfl

/-- Resolving from another state of the same bus with the same index registers. -/
theorem resolve_sameBus {s t : State} (hs : t.slots = s.slots) (hd : t.devices = s.devices) (hx : t.x = s.x)
    (hy : t.y = s.y) (m : MemOperand) : resolve m t = (resolve m s).seenFrom t := by
  cases m <;> simp only [resolve, hx, hy, readPtr_sameBus hs hd]
  case ind a => rcases readPtr a s with ⟨v, u⟩ | r <;> rfl
  case izx d => rcases readPtr (zext16 (d + s.x)) s with ⟨v, u⟩ | r <;> rfl
  case izy d =>
    rcases h : readPtr (zext16 d) s with ⟨v, u⟩ | r
    · have hr : u.y = s.y := by
        obtain ⟨lo, s1, h1, h⟩ := Res.bind_eq_ok.1 h
        obtain ⟨hi, s2, h2, h⟩ := Res.bind_eq_ok.1 h
        cases h
        rw [(busRead_keeps h2).1, (busRead_keeps h1).1]; rfl
      simp [hr, hy]
    · rfl
  all_goals rw [Res.seenFrom_ok, ← State.setDevices_self hd]

/-! ## What successful accesses leave -/

theorem readsTo_refl (s : State) : s.ReadsTo s := ⟨rfl, fun _ => rfl⟩

theorem State.ReadsTo.trans {s t u : State} (h : s.ReadsTo t) (h' : t.ReadsTo u) : s.ReadsTo u := by
  refine ⟨?_, fun a => (h'.2 a).trans (h.2 a)⟩
  rw [h'.1, h.1]

/-- A bus read only reads. -/
theorem readsTo_of_busRead {a : Addr} {s t : State} {v : Byte} (h : busRead a s = .ok v t) : s.ReadsTo t := by
  obtain ⟨h1, h2⟩ := busRead_keeps h
  exact ⟨h1, byteAt_congr (by rw [h1]; rfl) h2⟩

theorem readsTo_of_readPtr {p a : Addr} {s t : State} (h : readPtr p s = .ok a t) : s.ReadsTo t := by
  obtain ⟨lo, s1, h1, h⟩ := Res.bind_eq_ok.1 h
  obtain ⟨hi, s2, h2, h⟩ := Res.bind_eq_ok.1 h
  cases h
  exact (readsTo_of_busRead h1).trans (readsTo_of_busRead h2)

/-- A resolver only reads. -/
theorem readsTo_of_resolve {m : MemOperand} {s t : State} {r : Addr × Bool} (h : resolve m s = .ok r t) : s.ReadsTo t := by
  cases m <;> simp only [resolve] at h
  all_goals first
    | (cases h; exact readsTo_refl _)
    | (obtain ⟨b, s1, h1, h⟩ := Res.bind_eq_ok.1 h; cases h; exact readsTo_of_readPtr h1)

/-! ## The shapes of instructions, when their accesses succeed -/

theorem addressed_next {base : Nat} {xb xa : Bool} {m : MemOperand} {h : Addr → State → Res Unit} {s t u : State} {ea : Addr}
    (h1 : resolve m s = .ok (ea, xa) t) (h2 : h ea (t.advance base m.length) = .ok () u) :
    addressed base xb m h s = .next (u.addCycles (xa && xb).toNat) := by
  simp [addressed, h1, h2]

theorem readMem_next {base : Nat} {xb xa : Bool} {m : MemOperand} {f : Byte → State → State} {s t u : State} {ea : Addr}
    {v : Byte} (h1 : resolve m s = .ok (ea, xa) t) (h2 : busRead ea t = .ok v u) :
    readMem base xb m f s =
      .next ((f v ((t.advance base m.length).setDevices u.devices)).addCycles (xa && xb).toNat) :=
  addressed_next h1 (by rw [busRead_ok_sameBus (t := t.advance base m.length) h2 rfl rfl]; rfl)

theorem storeMem_next {base : Nat} {xa : Bool} {m : MemOperand} {v : Addr → State → Byte} {s t u : State} {ea : Addr}
    (h1 : resolve m s = .ok (ea, xa) t) (h2 : busWrite ea (v ea (t.advance base m.length)) t = .ok () u) :
    storeMem base m v s = .next (((t.advance base m.length).setDevices u.devices).addCycles (xa && false).toNat) :=
  addressed_next h1 (busWrite_ok_sameBus h2 rfl rfl)

theorem rmwMem_next {base : Nat} {xa : Bool} {m : MemOperand} {f : Byte → Byte → Byte × Byte} {s t w u : State} {ea : Addr}
    {v : Byte} (h1 : resolve m s = .ok (ea, xa) t) (h2 : busRead ea t = .ok v w)
    (h3 : busWrite ea (f v t.p).1 w = .ok () u) :
    rmwMem base m f s = .next
      ((((t.advance base m.length).setP (f v t.p).2).setDevices u.devices).addCycles (xa && false).toNat) :=
  addressed_next h1 (by
    rw [busRead_ok_sameBus (t := t.advance base m.length) h2 rfl rfl]
    exact busWrite_ok_sameBus h3 (by rw [(busRead_keeps h2).1]; rfl) rfl)

theorem rmwThen_next {base : Nat} {xa : Bool} {m : MemOperand} {f : Byte → Byte → Byte × Byte} {g : Byte → State → State}
    {s t w u : State} {ea : Addr} {v : Byte} (h1 : resolve m s = .ok (ea, xa) t) (h2 : busRead ea t = .ok v w)
    (h3 : busWrite ea (f v t.p).1 w = .ok () u) :
    rmwThen base m f g s = .next
      ((g (f v t.p).1 (((t.advance base m.length).setP (f v t.p).2).setDevices u.devices)).addCycles
        (xa && false).toNat) :=
  addressed_next h1 (by
    rw [busRead_ok_sameBus (t := t.advance base m.length) h2 rfl rfl, Res.ok_bind]
    have h := busWrite_ok_sameBus (t := ((t.advance base m.length).setDevices w.devices).setP (f v t.p).2) h3
      (by rw [(busRead_keeps h2).1]; rfl) rfl
    exact congrArg (fun r => r.bind fun _ t' => .ok () (g (f v t.p).1 t')) h)

end Sys2Proof.Machine
end

