-- ==== Sys2Proof/Laws/Exec.lean ====
section
/-! SUPPORT. What every instruction keeps: a relation that each bus access and each register write respects holds between
the state before an instruction and the state after it. -/

namespace Sys2Proof.Machine

/-! ## The rows of the writer tables that the proof below cites -/

theorem adc_flags_czvn : ∀ g ∈ [Flag.c, .z, .v, .n], Mnemonic.adc ∈ flagWriters g := by decide
theorem adc_writes_a : Mnemonic.adc ∈ registerWriters .a := by decide
theorem alr_flags_czn : ∀ g ∈ [Flag.c, .z, .n], Mnemonic.alr ∈ flagWriters g := by decide
theorem alr_writes_a : Mnemonic.alr ∈ registerWriters .a := by decide
theorem anc_flags_czn : ∀ g ∈ [Flag.c, .z, .n], Mnemonic.anc ∈ flagWriters g := by decide
theorem anc_writes_a : Mnemonic.anc ∈ registerWriters .a := by decide
theorem and_flags_zn : ∀ g ∈ [Flag.z, .n], Mnemonic.and ∈ flagWriters g := by decide
theorem and_writes_a : Mnemonic.and ∈ registerWriters .a := by decide
theorem arr_flags_czvn : ∀ g ∈ [Flag.c, .z, .v, .n], Mnemonic.arr ∈ flagWriters g := by decide
theorem arr_writes_a : Mnemonic.arr ∈ registerWriters .a := by decide
theorem asl_flags_czn : ∀ g ∈ [Flag.c, .z, .n], Mnemonic.asl ∈ flagWriters g := by decide
theorem asl_writes_a : Mnemonic.asl ∈ registerWriters .a := by decide
theorem axs_flags_czn : ∀ g ∈ [Flag.c, .z, .n], Mnemonic.axs ∈ flagWriters g := by decide
theorem axs_writes_x : Mnemonic.axs ∈ registerWriters .x := by decide
theorem bit_flags_znv : ∀ g ∈ [Flag.z, .n, .v], Mnemonic.bit ∈ flagWriters g := by decide
theorem brk_flags_i : ∀ g ∈ [Flag.i], Mnemonic.brk ∈ flagWriters g := by decide
theorem brk_writes_sp : Mnemonic.brk ∈ registerWriters .sp := by decide
theorem clc_flags_c : ∀ g ∈ [Flag.c], Mnemonic.clc ∈ flagWriters g := by decide
theorem cld_flags_d : ∀ g ∈ [Flag.d], Mnemonic.cld ∈ flagWriters g := by decide
theorem cli_flags_i : ∀ g ∈ [Flag.i], Mnemonic.cli ∈ flagWriters g := by decide
theorem clv_flags_v : ∀ g ∈ [Flag.v], Mnemonic.clv ∈ flagWriters g := by decide
theorem cmp_flags_czn : ∀ g ∈ [Flag.c, .z, .n], Mnemonic.cmp ∈ flagWriters g := by decide
theorem cpx_flags_czn : ∀ g ∈ [Flag.c, .z, .n], Mnemonic.cpx ∈ flagWriters g := by decide
theorem cpy_flags_czn : ∀ g ∈ [Flag.c, .z, .n], Mnemonic.cpy ∈ flagWriters g := by decide
theorem dcp_flags_czn : ∀ g ∈ [Flag.c, .z, .n], Mnemonic.dcp ∈ flagWriters g := by decide
theorem dcp_flags_zn : ∀ g ∈ [Flag.z, .n], Mnemonic.dcp ∈ flagWriters g := by decide
theorem dec_flags_zn : ∀ g ∈ [Flag.z, .n], Mnemonic.dec ∈ flagWriters g := by decide
theorem dex_flags_zn : ∀ g ∈ [Flag.z, .n], Mnemonic.dex ∈ flagWriters g := by decide
theorem dex_writes_x : Mnemonic.dex ∈ registerWriters .x := by decide
theorem dey_flags_zn : ∀ g ∈ [Flag.z, .n], Mnemonic.dey ∈ flagWriters g := by decide
theorem dey_writes_y : Mnemonic.dey ∈ registerWriters .y := by decide
theorem eor_flags_zn : ∀ g ∈ [Flag.z, .n], Mnemonic.eor ∈ flagWriters g := by decide
theorem eor_writes_a : Mnemonic.eor ∈ registerWriters .a := by decide
theorem inc_flags_zn : ∀ g ∈ [Flag.z, .n], Mnemonic.inc ∈ flagWriters g := by decide
theorem inx_flags_zn : ∀ g ∈ [Flag.z, .n], Mnemonic.inx ∈ flagWriters g := by decide
theorem inx_writes_x : Mnemonic.inx ∈ registerWriters .x := by decide
theorem iny_flags_zn : ∀ g ∈ [Flag.z, .n], Mnemonic.iny ∈ flagWriters g := by decide
theorem iny_writes_y : Mnemonic.iny ∈ registerWriters .y := by decide
theorem isc_flags_czvn : ∀ g ∈ [Flag.c, .z, .v, .n], Mnemonic.isc ∈ flagWriters g := by decide
theorem isc_flags_zn : ∀ g ∈ [Flag.z, .n], Mnemonic.isc ∈ flagWriters g := by decide
theorem isc_writes_a : Mnemonic.isc ∈ registerWriters .a := by decide
theorem jsr_writes_sp : Mnemonic.jsr ∈ registerWriters .sp := by decide
theorem las_flags_zn : ∀ g ∈ [Flag.z, .n], Mnemonic.las ∈ flagWriters g := by decide
theorem las_writes_a : Mnemonic.las ∈ registerWriters .a := by decide
theorem las_writes_sp : Mnemonic.las ∈ registerWriters .sp := by decide
theorem las_writes_x : Mnemonic.las ∈ registerWriters .x := by decide
theorem lax_flags_zn : ∀ g ∈ [Flag.z, .n], Mnemonic.lax ∈ flagWriters g := by decide
theorem lax_writes_a : Mnemonic.lax ∈ registerWriters .a := by decide
theorem lax_writes_x : Mnemonic.lax ∈ registerWriters .x := by decide
theorem lda_flags_zn : ∀ g ∈ [Flag.z, .n], Mnemonic.lda ∈ flagWriters g := by decide
theorem lda_writes_a : Mnemonic.lda ∈ registerWriters .a := by decide
theorem ldx_flags_zn : ∀ g ∈ [Flag.z, .n], Mnemonic.ldx ∈ flagWriters g := by decide
theorem ldx_writes_x : Mnemonic.ldx ∈ registerWriters .x := by decide
theorem ldy_flags_zn : ∀ g ∈ [Flag.z, .n], Mnemonic.ldy ∈ flagWriters g := by decide
theorem ldy_writes_y : Mnemonic.ldy ∈ registerWriters .y := by decide
theorem lsr_flags_czn : ∀ g ∈ [Flag.c, .z, .n], Mnemonic.lsr ∈ flagWriters g := by decide
theorem lsr_writes_a : Mnemonic.lsr ∈ registerWriters .a := by decide
theorem ora_flags_zn : ∀ g ∈ [Flag.z, .n], Mnemonic.ora ∈ flagWriters g := by decide
theorem ora_writes_a : Mnemonic.ora ∈ registerWriters .a := by decide
theorem pha_writes_sp : Mnemonic.pha ∈ registerWriters .sp := by decide
theorem php_writes_sp : Mnemonic.php ∈ registerWriters .sp := by decide
theorem pla_flags_zn : ∀ g ∈ [Flag.z, .n], Mnemonic.pla ∈ flagWriters g := by decide
theorem pla_writes_a : Mnemonic.pla ∈ registerWriters .a := by decide
theorem pla_writes_sp : Mnemonic.pla ∈ registerWriters .sp := by decide
theorem plp_writes_sp : Mnemonic.plp ∈ registerWriters .sp := by decide
theorem rla_flags_czn : ∀ g ∈ [Flag.c, .z, .n], Mnemonic.rla ∈ flagWriters g := by decide
theorem rla_flags_zn : ∀ g ∈ [Flag.z, .n], Mnemonic.rla ∈ flagWriters g := by decide
theorem rla_writes_a : Mnemonic.rla ∈ registerWriters .a := by decide
theorem rol_flags_czn : ∀ g ∈ [Flag.c, .z, .n], Mnemonic.rol ∈ flagWriters g := by decide
theorem rol_writes_a : Mnemonic.rol ∈ registerWriters .a := by decide
theorem ror_flags_czn : ∀ g ∈ [Flag.c, .z, .n], Mnemonic.ror ∈ flagWriters g := by decide
theorem ror_writes_a : Mnemonic.ror ∈ registerWriters .a := by decide
theorem rra_flags_czn : ∀ g ∈ [Flag.c, .z, .n], Mnemonic.rra ∈ flagWriters g := by decide
theorem rra_flags_czvn : ∀ g ∈ [Flag.c, .z, .v, .n], Mnemonic.rra ∈ flagWriters g := by decide
theorem rra_writes_a : Mnemonic.rra ∈ registerWriters .a := by decide
theorem rti_writes_sp : Mnemonic.rti ∈ registerWriters .sp := by decide
theorem rts_writes_sp : Mnemonic.rts ∈ registerWriters .sp := by decide
theorem sbc_flags_czvn : ∀ g ∈ [Flag.c, .z, .v, .n], Mnemonic.sbc ∈ flagWriters g := by decide
theorem sbc_writes_a : Mnemonic.sbc ∈ registerWriters .a := by decide
theorem sec_flags_c : ∀ g ∈ [Flag.c], Mnemonic.sec ∈ flagWriters g := by decide
theorem sed_flags_d : ∀ g ∈ [Flag.d], Mnemonic.sed ∈ flagWriters g := by decide
theorem sei_flags_i : ∀ g ∈ [Flag.i], Mnemonic.sei ∈ flagWriters g := by decide
theorem slo_flags_czn : ∀ g ∈ [Flag.c, .z, .n], Mnemonic.slo ∈ flagWriters g := by decide
theorem slo_flags_zn : ∀ g ∈ [Flag.z, .n], Mnemonic.slo ∈ flagWriters g := by decide
theorem slo_writes_a : Mnemonic.slo ∈ registerWriters .a := by decide
theorem sre_flags_czn : ∀ g ∈ [Flag.c, .z, .n], Mnemonic.sre ∈ flagWriters g := by decide
theorem sre_flags_zn : ∀ g ∈ [Flag.z, .n], Mnemonic.sre ∈ flagWriters g := by decide
theorem sre_writes_a : Mnemonic.sre ∈ registerWriters .a := by decide
theorem tas_writes_sp : Mnemonic.tas ∈ registerWriters .sp := by decide
theorem tax_flags_zn : ∀ g ∈ [Flag.z, .n], Mnemonic.tax ∈ flagWriters g := by decide
theorem tax_writes_x : Mnemonic.tax ∈ registerWriters .x := by decide
theorem tay_flags_zn : ∀ g ∈ [Flag.z, .n], Mnemonic.tay ∈ flagWriters g := by decide
theorem tay_writes_y : Mnemonic.tay ∈ registerWriters .y := by decide
theorem tsx_flags_zn : ∀ g ∈ [Flag.z, .n], Mnemonic.tsx ∈ flagWriters g := by decide
theorem tsx_writes_x : Mnemonic.tsx ∈ registerWriters .x := by decide
theorem txa_flags_zn : ∀ g ∈ [Flag.z, .n], Mnemonic.txa ∈ flagWriters g := by decide
theorem txa_writes_a : Mnemonic.txa ∈ registerWriters .a := by decide
theorem txs_writes_sp : Mnemonic.txs ∈ registerWriters .sp := by decide
theorem tya_flags_zn : ∀ g ∈ [Flag.z, .n], Mnemonic.tya ∈ flagWriters g := by decide
theorem tya_writes_a : Mnemonic.tya ∈ registerWriters .a := by decide
theorem xaa_flags_zn : ∀ g ∈ [Flag.z, .n], Mnemonic.xaa ∈ flagWriters g := by decide
theorem xaa_writes_a : Mnemonic.xaa ∈ registerWriters .a := by decide

section

variable {okR : Reg → Prop} {okP : Byte → Byte → Prop} {R : State → State → Prop} (hR : Respected okR okP R)

include hR

theorem Respected.loadA (ha : okR .a) (hz : ∀ v p, okP p (setZN v p)) (v : Byte) (s : State) : R s (loadA v s) :=
  hR.trans (hR.setA ha _ _) (hR.setP (hz _ _))

theorem Respected.loadX (hx : okR .x) (hz : ∀ v p, okP p (setZN v p)) (v : Byte) (s : State) : R s (loadX v s) :=
  hR.trans (hR.setX hx _ _) (hR.setP (hz _ _))

theorem Respected.loadY (hy : okR .y) (hz : ∀ v p, okP p (setZN v p)) (v : Byte) (s : State) : R s (loadY v s) :=
  hR.trans (hR.setY hy _ _) (hR.setP (hz _ _))

theorem Respected.loadAX (ha : okR .a) (hx : okR .x) (hz : ∀ v p, okP p (setZN v p)) (v : Byte) (s : State) :
    R s (loadAX v s) :=
  hR.trans (hR.setA ha _ _) (hR.trans (hR.setX hx _ _) (hR.setP (hz _ _)))

theorem Respected.loadLas (ha : okR .a) (hx : okR .x) (hs : okR .sp) (hz : ∀ v p, okP p (setZN v p)) (v : Byte)
    (s : State) : R s (loadLas v s) :=
  hR.trans (hR.setA ha _ _) (hR.trans (hR.setX hx _ _) (hR.trans (hR.setSP hs _ _) (hR.setP (hz _ _))))

theorem Respected.aluA (ha : okR .a) {f : Byte → Byte → Byte → Byte × Byte} (hf : ∀ a v p, okP p (f a v p).2) (v : Byte)
    (s : State) : R s ((s.setA (f s.a v s.p).1).setP (f s.a v s.p).2) :=
  hR.trans (hR.setA ha _ _) (hR.setP (hf _ _ _))

/-- Every instruction respects the relation, given that it may write the registers and the flags that the tables of
10_state.md give its mnemonic, and that PLP, RTI and KIL do what they do beyond that. -/
theorem exec_respects {i : Instr}
    (hr : ∀ r, i.mnemonic ∈ registerWriters r → okR r)
    (hc : ∀ p q, (∀ g, i.mnemonic ∉ flagWriters g → getFlag g q = getFlag g p) → okP p q)
    (hp : i.mnemonic ∈ [.plp, .rti] → ∀ p v, okP p (statusOfPopped v))
    (hk : i.mnemonic = .kil → ∀ s, R s (s.setHalted true))
    {s t : State} (e : exec i s = .next t) : R s t := by
  have hw : ∀ w : List Flag, (∀ g ∈ w, i.mnemonic ∈ flagWriters g) → ∀ p q, SameBut w p q → okP p q :=
    fun w hsub p q h => hc p q fun g hg => h g fun hgw => hg (hsub g hgw)
  cases i
  case brk =>
    exact hR.plain (fun _ _ h => hR.interruptEntry (hr .sp brk_writes_sp)
      (fun p => hw [.i] brk_flags_i _ _ (.put _ _ p)) h) e
  case oraIndX | oraZp | oraAbs | oraIndY | oraZpX | oraAbsY | oraAbsX =>
    exact hR.readMem (f := orA) (fun _ _ => hR.loadA (hr .a ora_writes_a)
      (fun v p => hw [.z, .n] ora_flags_zn _ _ (.zn v p)) _ _) e
  case kil =>
    exact hR.implied (hk rfl) e
  case sloIndX | sloZp | sloAbs | sloIndY | sloZpX | sloAbsY | sloAbsX =>
    exact hR.rmwThen (f := aslByte) (g := orA) (fun a b => hw [.c, .z, .n] slo_flags_czn _ _ (.asl a b))
      (fun _ _ => hR.loadA (hr .a slo_writes_a) (fun v p => hw [.z, .n] slo_flags_zn _ _ (.zn v p)) _ _) e
  case nopZp | nopAbs | nopZpX | nopAbsX =>
    exact hR.readMem (f := ignore) (fun _ _ => hR.refl _) e
  case aslZp | aslAbs | aslZpX | aslAbsX =>
    exact hR.rmwMem (f := aslByte) (fun a b => hw [.c, .z, .n] asl_flags_czn _ _ (.asl a b)) e
  case php =>
    exact hR.plain (fun _ _ h => hR.push (hr .sp php_writes_sp) h) e
  case oraImm =>
    exact hR.readImm (f := orA) (fun _ _ => hR.loadA (hr .a ora_writes_a)
      (fun v p => hw [.z, .n] ora_flags_zn _ _ (.zn v p)) _ _) e
  case aslAcc =>
    exact hR.rmwAcc (f := aslByte) (hr .a asl_writes_a) (fun a b => hw [.c, .z, .n] asl_flags_czn _ _ (.asl a b)) e
  case ancImm0B | ancImm2B =>
    exact hR.readImm (f := ancA) (fun _ _ => hR.aluA (hr .a anc_writes_a)
      (fun a b c => hw [.c, .z, .n] anc_flags_czn _ _ (.anc a b c)) _ _) e
  case bpl | bmi | bvc | bvs | bcc | bcs | bne | beq =>
    exact hR.branch e
  case clc =>
    exact hR.implied (fun _ => hR.setP (hw [.c] clc_flags_c _ _ (.put _ _ _))) e
  case nopImp | nop =>
    exact hR.implied (fun _ => hR.refl _) e
  case jsrAbs =>
    refine hR.addressed (h := callTo) (fun a s t h => ?_) e
    obtain ⟨_, s1, h1, h⟩ := Res.bind_eq_ok.1 h
    cases h
    exact hR.trans (hR.pushAddr (hr .sp jsr_writes_sp) h1) (hR.setPC _ _)
  case andIndX | andZp | andAbs | andIndY | andZpX | andAbsY | andAbsX =>
    exact hR.readMem (f := andA) (fun _ _ => hR.loadA (hr .a and_writes_a)
      (fun v p => hw [.z, .n] and_flags_zn _ _ (.zn v p)) _ _) e
  case rlaIndX | rlaZp | rlaAbs | rlaIndY | rlaZpX | rlaAbsY | rlaAbsX =>
    exact hR.rmwThen (f := rolByte) (g := andA) (fun a b => hw [.c, .z, .n] rla_flags_czn _ _ (.rol a b))
      (fun _ _ => hR.loadA (hr .a rla_writes_a) (fun v p => hw [.z, .n] rla_flags_zn _ _ (.zn v p)) _ _) e
  case bitZp | bitAbs =>
    exact hR.readMem (f := bitA) (fun _ _ => hR.setP ((fun a b c => hw [.z, .n, .v] bit_flags_znv _ _
      (.bit a b c)) _ _ _)) e
  case rolZp | rolAbs | rolZpX | rolAbsX =>
    exact hR.rmwMem (f := rolByte) (fun a b => hw [.c, .z, .n] rol_flags_czn _ _ (.rol a b)) e
  case plp =>
    refine hR.plain (fun s t h => ?_) e
    obtain ⟨v, s1, h1, h⟩ := Res.bind_eq_ok.1 h
    cases h
    exact hR.trans (hR.pop (hr .sp plp_writes_sp) h1) (hR.setP (hp (show Mnemonic.plp ∈ _ from by decide) _ _))
  case andImm =>
    exact hR.readImm (f := andA) (fun _ _ => hR.loadA (hr .a and_writes_a)
      (fun v p => hw [.z, .n] and_flags_zn _ _ (.zn v p)) _ _) e
  case rolAcc =>
    exact hR.rmwAcc (f := rolByte) (hr .a rol_writes_a) (fun a b => hw [.c, .z, .n] rol_flags_czn _ _ (.rol a b)) e
  case sec =>
    exact hR.implied (fun _ => hR.setP (hw [.c] sec_flags_c _ _ (.put _ _ _))) e
  case rti =>
    exact hR.plain (fun _ _ h => hR.interruptReturn (hr .sp rti_writes_sp) (hp
      (show Mnemonic.rti ∈ _ from by decide)) h) e
  case eorIndX | eorZp | eorAbs | eorIndY | eorZpX | eorAbsY | eorAbsX =>
    exact hR.readMem (f := eorA) (fun _ _ => hR.loadA (hr .a eor_writes_a)
      (fun v p => hw [.z, .n] eor_flags_zn _ _ (.zn v p)) _ _) e
  case sreIndX | sreZp | sreAbs | sreIndY | sreZpX | sreAbsY | sreAbsX =>
    exact hR.rmwThen (f := lsrByte) (g := eorA) (fun a b => hw [.c, .z, .n] sre_flags_czn _ _ (.lsr a b))
      (fun _ _ => hR.loadA (hr .a sre_writes_a) (fun v p => hw [.z, .n] sre_flags_zn _ _ (.zn v p)) _ _) e
  case lsrZp | lsrAbs | lsrZpX | lsrAbsX =>
    exact hR.rmwMem (f := lsrByte) (fun a b => hw [.c, .z, .n] lsr_flags_czn _ _ (.lsr a b)) e
  case pha =>
    exact hR.plain (fun _ _ h => hR.push (hr .sp pha_writes_sp) h) e
  case eorImm =>
    exact hR.readImm (f := eorA) (fun _ _ => hR.loadA (hr .a eor_writes_a)
      (fun v p => hw [.z, .n] eor_flags_zn _ _ (.zn v p)) _ _) e
  case lsrAcc =>
    exact hR.rmwAcc (f := lsrByte) (hr .a lsr_writes_a) (fun a b => hw [.c, .z, .n] lsr_flags_czn _ _ (.lsr a b)) e
  case alrImm =>
    exact hR.readImm (f := alrA) (fun _ _ => hR.aluA (hr .a alr_writes_a)
      (fun a b c => hw [.c, .z, .n] alr_flags_czn _ _ (.alr a b c)) _ _) e
  case jmpAbs =>
    exact hR.addressed (fun _ _ _ h => by cases h; exact hR.setPC _ _) (show addressed 3 false
      (.abs _) jumpTo s = .next t from e)
  case cli =>
    exact hR.implied (fun _ => hR.setP (hw [.i] cli_flags_i _ _ (.put _ _ _))) e
  case rts =>
    refine hR.plain (fun s t h => ?_) e
    obtain ⟨a, s1, h1, h⟩ := Res.bind_eq_ok.1 h
    cases h
    exact hR.trans (hR.popAddr (hr .sp rts_writes_sp) h1) (hR.setPC _ _)
  case adcIndX | adcZp | adcAbs | adcIndY | adcZpX | adcAbsY | adcAbsX =>
    exact hR.readMem (f := adcA) (fun _ _ => hR.aluA (hr .a adc_writes_a)
      (fun a b c => hw [.c, .z, .v, .n] adc_flags_czvn _ _ (.adc a b c)) _ _) e
  case rraIndX | rraZp | rraAbs | rraIndY | rraZpX | rraAbsY | rraAbsX =>
    exact hR.rmwThen (f := rorByte) (g := adcA) (fun a b => hw [.c, .z, .n] rra_flags_czn _ _ (.ror a b))
      (fun _ _ => hR.aluA (hr .a rra_writes_a) (fun a b c => hw [.c, .z, .v, .n] rra_flags_czvn _ _
      (.adc a b c)) _ _) e
  case rorZp | rorAbs | rorZpX | rorAbsX =>
    exact hR.rmwMem (f := rorByte) (fun a b => hw [.c, .z, .n] ror_flags_czn _ _ (.ror a b)) e
  case pla =>
    refine hR.plain (fun s t h => ?_) e
    obtain ⟨v, s1, h1, h⟩ := Res.bind_eq_ok.1 h
    cases h
    exact hR.trans (hR.pop (hr .sp pla_writes_sp) h1) (hR.loadA (hr .a pla_writes_a)
      (fun v p => hw [.z, .n] pla_flags_zn _ _ (.zn v p)) _ _)
  case adcImm =>
    exact hR.readImm (f := adcA) (fun _ _ => hR.aluA (hr .a adc_writes_a)
      (fun a b c => hw [.c, .z, .v, .n] adc_flags_czvn _ _ (.adc a b c)) _ _) e
  case rorAcc =>
    exact hR.rmwAcc (f := rorByte) (hr .a ror_writes_a) (fun a b => hw [.c, .z, .n] ror_flags_czn _ _ (.ror a b)) e
  case arrImm =>
    exact hR.readImm (f := arrA) (fun _ _ => hR.aluA (hr .a arr_writes_a)
      (fun a b c => hw [.c, .z, .v, .n] arr_flags_czvn _ _ (.arr a b c)) _ _) e
  case jmpInd =>
    exact hR.addressed (fun _ _ _ h => by cases h; exact hR.setPC _ _) (show addressed 5 false
      (.ind _) jumpTo s = .next t from e)
  case sei =>
    exact hR.implied (fun _ => hR.setP (hw [.i] sei_flags_i _ _ (.put _ _ _))) e
  case nopImm =>
    exact hR.readImm (f := ignore) (fun _ _ => hR.refl _) e
  case staIndX | staZp | staAbs | staIndY | staZpX | staAbsY | staAbsX =>
    exact hR.storeMem (v := fun _ s => s.a) e
  case saxIndX | saxZp | saxAbs | saxZpY =>
    exact hR.storeMem (v := fun _ s => s.a &&& s.x) e
  case styZp | styAbs | styZpX =>
    exact hR.storeMem (v := fun _ s => s.y) e
  case stxZp | stxAbs | stxZpY =>
    exact hR.storeMem (v := fun _ s => s.x) e
  case dey =>
    exact hR.implied (fun _ => hR.loadY (hr .y dey_writes_y) (fun v p => hw [.z, .n] dey_flags_zn _ _
      (.zn v p)) _ _) e
  case txa =>
    exact hR.implied (fun _ => hR.loadA (hr .a txa_writes_a) (fun v p => hw [.z, .n] txa_flags_zn _ _
      (.zn v p)) _ _) e
  case xaaImm =>
    exact hR.readImm (f := xaaA) (fun _ _ => hR.loadA (hr .a xaa_writes_a)
      (fun v p => hw [.z, .n] xaa_flags_zn _ _ (.zn v p)) _ _) e
  case ahxIndY | ahxAbsY =>
    exact hR.storeMem (v := ahxByte) e
  case tya =>
    exact hR.implied (fun _ => hR.loadA (hr .a tya_writes_a) (fun v p => hw [.z, .n] tya_flags_zn _ _
      (.zn v p)) _ _) e
  case txs =>
    exact hR.implied (fun _ => hR.setSP (hr .sp txs_writes_sp) _ _) e
  case tasAbsY =>
    exact hR.addressed (h := storeTas) (fun _ _ _ h => hR.trans (hR.setSP (hr .sp tas_writes_sp) _ _) (hR.write h)) e
  case shyAbsX =>
    exact hR.storeMem (v := shyByte) e
  case shxAbsY =>
    exact hR.storeMem (v := shxByte) e
  case ldyImm =>
    exact hR.readImm (f := loadY) (fun _ _ => hR.loadY (hr .y ldy_writes_y)
      (fun v p => hw [.z, .n] ldy_flags_zn _ _ (.zn v p)) _ _) e
  case ldaIndX | ldaZp | ldaAbs | ldaIndY | ldaZpX | ldaAbsY | ldaAbsX =>
    exact hR.readMem (f := loadA) (fun _ _ => hR.loadA (hr .a lda_writes_a)
      (fun v p => hw [.z, .n] lda_flags_zn _ _ (.zn v p)) _ _) e
  case ldxImm =>
    exact hR.readImm (f := loadX) (fun _ _ => hR.loadX (hr .x ldx_writes_x)
      (fun v p => hw [.z, .n] ldx_flags_zn _ _ (.zn v p)) _ _) e
  case laxIndX | laxZp | laxAbs | laxIndY | laxZpY | laxAbsY =>
    exact hR.readMem (f := loadAX) (fun _ _ => hR.loadAX (hr .a lax_writes_a) (hr .x lax_writes_x)
      (fun v p => hw [.z, .n] lax_flags_zn _ _ (.zn v p)) _ _) e
  case ldyZp | ldyAbs | ldyZpX | ldyAbsX =>
    exact hR.readMem (f := loadY) (fun _ _ => hR.loadY (hr .y ldy_writes_y)
      (fun v p => hw [.z, .n] ldy_flags_zn _ _ (.zn v p)) _ _) e
  case ldxZp | ldxAbs | ldxZpY | ldxAbsY =>
    exact hR.readMem (f := loadX) (fun _ _ => hR.loadX (hr .x ldx_writes_x)
      (fun v p => hw [.z, .n] ldx_flags_zn _ _ (.zn v p)) _ _) e
  case tay =>
    exact hR.implied (fun _ => hR.loadY (hr .y tay_writes_y) (fun v p => hw [.z, .n] tay_flags_zn _ _
      (.zn v p)) _ _) e
  case ldaImm =>
    exact hR.readImm (f := loadA) (fun _ _ => hR.loadA (hr .a lda_writes_a)
      (fun v p => hw [.z, .n] lda_flags_zn _ _ (.zn v p)) _ _) e
  case tax =>
    exact hR.implied (fun _ => hR.loadX (hr .x tax_writes_x) (fun v p => hw [.z, .n] tax_flags_zn _ _
      (.zn v p)) _ _) e
  case laxImm =>
    exact hR.readImm (f := laxImmAX) (fun _ _ => hR.loadAX (hr .a lax_writes_a) (hr .x lax_writes_x)
      (fun v p => hw [.z, .n] lax_flags_zn _ _ (.zn v p)) _ _) e
  case clv =>
    exact hR.implied (fun _ => hR.setP (hw [.v] clv_flags_v _ _ (.put _ _ _))) e
  case tsx =>
    exact hR.implied (fun _ => hR.loadX (hr .x tsx_writes_x) (fun v p => hw [.z, .n] tsx_flags_zn _ _
      (.zn v p)) _ _) e
  case lasAbsY =>
    exact hR.readMem (f := loadLas) (fun _ _ => hR.loadLas (hr .a las_writes_a) (hr .x las_writes_x)
      (hr .sp las_writes_sp) (fun v p => hw [.z, .n] las_flags_zn _ _ (.zn v p)) _ _) e
  case cpyImm =>
    exact hR.readImm (f := cmpY) (fun _ _ => hR.setP ((fun a b c => hw [.c, .z, .n] cpy_flags_czn _ _
      (.compare a b c)) _ _ _)) e
  case cmpIndX | cmpZp | cmpAbs | cmpIndY | cmpZpX | cmpAbsY | cmpAbsX =>
    exact hR.readMem (f := cmpA) (fun _ _ => hR.setP ((fun a b c => hw [.c, .z, .n] cmp_flags_czn _ _
      (.compare a b c)) _ _ _)) e
  case dcpIndX | dcpZp | dcpAbs | dcpIndY | dcpZpX | dcpAbsY | dcpAbsX =>
    exact hR.rmwThen (f := decByte) (g := cmpA) (fun a b => hw [.z, .n] dcp_flags_zn _ _ (.dec a b))
      (fun _ _ => hR.setP ((fun a b c => hw [.c, .z, .n] dcp_flags_czn _ _ (.compare a b c)) _ _ _)) e
  case cpyZp | cpyAbs =>
    exact hR.readMem (f := cmpY) (fun _ _ => hR.setP ((fun a b c => hw [.c, .z, .n] cpy_flags_czn _ _
      (.compare a b c)) _ _ _)) e
  case decZp | decAbs | decZpX | decAbsX =>
    exact hR.rmwMem (f := decByte) (fun a b => hw [.z, .n] dec_flags_zn _ _ (.dec a b)) e
  case iny =>
    exact hR.implied (fun _ => hR.loadY (hr .y iny_writes_y) (fun v p => hw [.z, .n] iny_flags_zn _ _
      (.zn v p)) _ _) e
  case cmpImm =>
    exact hR.readImm (f := cmpA) (fun _ _ => hR.setP ((fun a b c => hw [.c, .z, .n] cmp_flags_czn _ _
      (.compare a b c)) _ _ _)) e
  case dex =>
    exact hR.implied (fun _ => hR.loadX (hr .x dex_writes_x) (fun v p => hw [.z, .n] dex_flags_zn _ _
      (.zn v p)) _ _) e
  case axsImm =>
    exact hR.readImm (f := axsX) (fun _ _ => hR.trans (hR.setX (hr .x axs_writes_x) _ _) (hR.setP
      ((fun a b c => hw [.c, .z, .n] axs_flags_czn _ _ (.compare a b c)) _ _ _))) e
  case cld =>
    exact hR.implied (fun _ => hR.setP (hw [.d] cld_flags_d _ _ (.put _ _ _))) e
  case cpxImm =>
    exact hR.readImm (f := cmpX) (fun _ _ => hR.setP ((fun a b c => hw [.c, .z, .n] cpx_flags_czn _ _
      (.compare a b c)) _ _ _)) e
  case sbcIndX | sbcZp | sbcAbs | sbcIndY | sbcZpX | sbcAbsY | sbcAbsX =>
    exact hR.readMem (f := sbcA) (fun _ _ => hR.aluA (hr .a sbc_writes_a)
      (fun a b c => hw [.c, .z, .v, .n] sbc_flags_czvn _ _ (.sbc a b c)) _ _) e
  case iscIndX | iscZp | iscAbs | iscIndY | iscZpX | iscAbsY | iscAbsX =>
    exact hR.rmwThen (f := incByte) (g := sbcA) (fun a b => hw [.z, .n] isc_flags_zn _ _ (.inc a b))
      (fun _ _ => hR.aluA (hr .a isc_writes_a) (fun a b c => hw [.c, .z, .v, .n] isc_flags_czvn _ _
      (.sbc a b c)) _ _) e
  case cpxZp | cpxAbs =>
    exact hR.readMem (f := cmpX) (fun _ _ => hR.setP ((fun a b c => hw [.c, .z, .n] cpx_flags_czn _ _
      (.compare a b c)) _ _ _)) e
  case incZp | incAbs | incZpX | incAbsX =>
    exact hR.rmwMem (f := incByte) (fun a b => hw [.z, .n] inc_flags_zn _ _ (.inc a b)) e
  case inx =>
    exact hR.implied (fun _ => hR.loadX (hr .x inx_writes_x) (fun v p => hw [.z, .n] inx_flags_zn _ _
      (.zn v p)) _ _) e
  case sbcImm | sbcImmEB =>
    exact hR.readImm (f := sbcA) (fun _ _ => hR.aluA (hr .a sbc_writes_a)
      (fun a b c => hw [.c, .z, .v, .n] sbc_flags_czvn _ _ (.sbc a b c)) _ _) e
  case sed =>
    exact hR.implied (fun _ => hR.setP (hw [.d] sed_flags_d _ _ (.put _ _ _))) e

end

end Sys2Proof.Machine
end

