-- ==== Sys2Proof/Laws/Stack.lean ====
section
/-! SUPPORT. Addresses and their bytes, accesses that are in range, pushing and popping several bytes, and the operand of an
instruction. -/

namespace Sys2Proof.Machine

/-! ## Addresses and their bytes -/

theorem mkAddr_toNat (h l : Byte) : (mkAddr h l).toNat = 256 * h.toNat + l.toNat := by
  have := l.isLt
  simp only [mkAddr, BitVec.toNat_append]
  rw [← Nat.shiftLeft_add_eq_or_of_lt l.isLt, Nat.shiftLeft_eq]; omega

theorem loByte_toNat (a : Addr) : (loByte a).toNat = a.toNat % 256 := by simp [loByte]

theorem hiByte_toNat (a : Addr) : (hiByte a).toNat = a.toNat / 256 := by
  have := a.isLt
  simp only [hiByte, BitVec.toNat_setWidth, BitVec.toNat_ushiftRight, Nat.shiftRight_eq_div_pow]; omega

@[simp] theorem loByte_mkAddr (h l : Byte) : loByte (mkAddr h l) = l := by
  apply BitVec.eq_of_toNat_eq; rw [loByte_toNat, mkAddr_toNat]; have := l.isLt; omega

@[simp] theorem hiByte_mkAddr (h l : Byte) : hiByte (mkAddr h l) = h := by
  apply BitVec.eq_of_toNat_eq; rw [hiByte_toNat, mkAddr_toNat]; have := l.isLt; omega

theorem mkAddr_inj {h h' l l' : Byte} (e : mkAddr h l = mkAddr h' l') : h = h' ∧ l = l' :=
  ⟨by simpa using congrArg hiByte e, by simpa using congrArg loByte e⟩

theorem zext16_toNat (b : Byte) : (zext16 b).toNat = b.toNat := by
  have := b.isLt
  simp [zext16]
  omega

/-- A page cross, by value. -/
theorem pageCross_eq (a b : Addr) : pageCross a b = decide (b.toNat / 256 ≠ a.toNat / 256) := by
  unfold pageCross
  rw [← hiByte_toNat, ← hiByte_toNat]
  by_cases h : hiByte b = hiByte a
  · simp [h]
  · simp [h, BitVec.toNat_inj]

/-! ## Accesses that are in range -/

/-- Whether an address is in range depends on the slots and the shapes. -/
theorem inRange_congr {s t : State} (hs : t.slots = s.slots) (hd : t.shapes = s.shapes) (a : Addr) :
    t.inRange a = s.inRange a := by
  have h := viewSlot_congr hs hd (pageOf a)
  unfold State.inRange
  simp only [viewSlot] at h
  rcases ht : t.slotDevice (pageOf a) with _ | ⟨d, _ | _⟩ <;>
    rcases hs' : s.slotDevice (pageOf a) with _ | ⟨e, _ | _⟩ <;> simp_all [Device.shape]

theorem busRead_of_inRange {s : State} {a : Addr} (h : s.inRange a = true) : ∃ v t, busRead a s = .ok v t := by
  unfold State.inRange at h
  unfold busRead
  rcases hs : s.slotDevice (pageOf a) with _ | ⟨d, ⟨k, n, c⟩ | ⟨id, w, i⟩⟩ <;> simp_all

theorem busWrite_of_inRange {s : State} {a : Addr} (h : s.inRange a = true) (v : Byte) :
    ∃ t, busWrite a v s = .ok () t := by
  unfold State.inRange at h
  unfold busWrite
  rcases hs : s.slotDevice (pageOf a) with _ | ⟨d, ⟨k, n, c⟩ | ⟨id, w, i⟩⟩ <;> simp_all <;> split <;> exact ⟨_, rfl⟩

theorem inRange_of_writableAt {s : State} {a : Addr} (h : s.writableAt a = true) : s.inRange a = true := by
  unfold State.inRange
  unfold State.writableAt at h
  rcases hs : s.slotDevice (pageOf a) with _ | ⟨d, ⟨k, n, c⟩ | ⟨id, w, i⟩⟩ <;> simp_all

/-- A covered platform serves every address. -/
theorem inRange_of_covered {s : State} (h : s.Covered) (a : Addr) : s.inRange a = true := by
  have hp := h (pageOf a)
  have hlt := toNat_lt_page_end a
  unfold State.pageCovered at hp
  unfold State.inRange
  rcases hs : s.slotDevice (pageOf a) with _ | ⟨d, ⟨k, n, c⟩ | ⟨id, w, i⟩⟩ <;> simp only [hs] at hp ⊢
  have := of_decide_eq_true hp
  simp; omega

/-! ## The stack -/

theorem pushTarget_zero (sp : Byte) : pushTarget sp 0 = stackAddr sp := by simp [pushTarget]

theorem pushTarget_succ (sp : Byte) (k : Nat) : pushTarget (sp - 1) k = pushTarget sp (k + 1) := by
  unfold pushTarget
  congr 1
  have h : BitVec.ofNat 8 (k + 1) = 1 + BitVec.ofNat 8 k := by rw [BitVec.ofNat_add, BitVec.add_comm]; rfl
  rw [h, BitVec.sub_sub]

/-- Up to 256 pushes go to different addresses. -/
theorem pushTarget_ne (sp : Byte) {j k : Nat} (hj : j < 256) (hk : k < 256) (h : j ≠ k) :
    pushTarget sp j ≠ pushTarget sp k := by
  intro e
  have e := congrArg (fun x => (sp - x).toNat) (mkAddr_inj e).2
  simp at e
  omega

/-- A push is a bus write at the stack address, then SP is decremented. -/
theorem push_eq_ok {v : Byte} {s t : State} {u : Unit} :
    push v s = .ok u t ↔ ∃ w, busWrite (stackAddr s.sp) v s = .ok () w ∧ t = w.setSP (s.sp - 1) := by
  unfold push
  constructor
  · intro h
    obtain ⟨_, w, h1, h⟩ := Res.bind_eq_ok.1 h
    cases h
    have : w.sp = s.sp := by rw [(busWrite_keeps h1).1]; rfl
    exact ⟨w, h1, by rw [this]⟩
  · rintro ⟨w, h1, rfl⟩
    have : w.sp = s.sp := by rw [(busWrite_keeps h1).1]; rfl
    rw [h1, Res.ok_bind, this]

/-- A pop is a bus read above the stack pointer, and SP is incremented. -/
theorem pop_ok {s t : State} {v : Byte} (h : busRead (stackAddr (s.sp + 1)) s = .ok v t) :
    pop s = .ok v (t.setSP (s.sp + 1)) := by
  unfold pop
  rw [busRead_ok_sameBus (t := s.setSP (s.sp + 1)) h rfl rfl, (busRead_keeps h).1]; rfl

theorem popAddr_ok {s t u : State} {lo hi : Byte} (h1 : busRead (stackAddr (s.sp + 1)) s = .ok lo t)
    (h2 : busRead (stackAddr (s.sp + 2)) t = .ok hi u) : popAddr s = .ok (mkAddr hi lo) (u.setSP (s.sp + 2)) := by
  have e : s.sp + 1 + 1 = s.sp + 2 := by rw [BitVec.add_assoc]; rfl
  unfold popAddr
  rw [pop_ok h1, Res.ok_bind]
  rw [pop_ok (s := t.setSP (s.sp + 1)) (busRead_ok_sameBus (s := t) (by
    show busRead (stackAddr (s.sp + 1 + 1)) t = _
    rw [e]; exact h2) rfl rfl), (busRead_keeps h2).1]
  simp only [Res.ok_bind, State.setSP_sp, e]; rfl

theorem push_eq_pushAll (v : Byte) (s : State) : push v s = pushAll [v] s := by
  unfold pushAll pushAll
  rcases push v s with ⟨⟨⟩, w⟩ | r <;> rfl

theorem pushAddr_eq_pushAll (a : Addr) (s : State) : pushAddr a s = pushAll [hiByte a, loByte a] s := by
  unfold pushAddr pushAll pushAll pushAll
  rcases push (hiByte a) s with ⟨_, u⟩ | r
  · simp only [Res.ok_bind]
    rcases push (loByte a) u with ⟨⟨⟩, w⟩ | r <;> rfl
  · rfl

/-- Pushes keep the slots, the shapes and the canonical form. -/
theorem pushAll_keeps {bs : List Byte} : ∀ {s t : State}, pushAll bs s = .ok () t →
    t.slots = s.slots ∧ t.shapes = s.shapes ∧ (s.memoryWf = true → t.memoryWf = true) := by
  induction bs with
  | nil => intro s t h; cases h; exact ⟨rfl, rfl, id⟩
  | cons b bs ih =>
    intro s t h
    obtain ⟨_, s1, h0, h⟩ := Res.bind_eq_ok.1 h
    obtain ⟨u, h1, rfl⟩ := push_eq_ok.1 h0
    obtain ⟨i1, i2, i3⟩ := ih h
    have k := busWrite_keeps h1
    refine ⟨i1.trans ?_, i2.trans k.2, fun hw => i3 ((memoryWf_congr (s := u) rfl).trans (busWrite_memoryWf h1 hw))⟩
    show u.slots = s.slots
    rw [k.1]; rfl

/-- Pushes succeed when every address they write to is in range. -/
theorem pushAll_of_inRange {bs : List Byte} : ∀ {s : State}, (∀ k < bs.length, s.inRange (pushTarget s.sp k) = true) →
    ∃ t, pushAll bs s = .ok () t := by
  induction bs with
  | nil => exact fun _ => ⟨_, rfl⟩
  | cons b bs ih =>
    intro s h
    obtain ⟨u, hu⟩ := busWrite_of_inRange (h 0 (by simp)) b
    rw [pushTarget_zero] at hu
    have hsl : u.slots = s.slots := by rw [(busWrite_keeps hu).1]; rfl
    obtain ⟨t, ht⟩ := @ih (u.setSP (s.sp - 1)) (by
      intro k hk
      rw [inRange_congr (s := s) (t := u.setSP (s.sp - 1)) hsl (busWrite_keeps hu).2, State.setSP_sp, pushTarget_succ]
      exact h (k + 1) (by simpa using hk))
    exact ⟨t, by rw [pushAll, (push_eq_ok (u := ())).2 ⟨u, hu, rfl⟩]; exact ht⟩

/-- Pushes from another state of the same bus with the same stack pointer. -/
theorem pushAll_sameBus (bs : List Byte) : ∀ {s t u : State}, pushAll bs s = .ok () u → t.slots = s.slots →
    t.devices = s.devices → t.sp = s.sp → pushAll bs t = .ok () ((t.setDevices u.devices).setSP u.sp) := by
  induction bs with
  | nil => intro s t u h hs hd hsp; cases h; simp only [pushAll, ← hd, ← hsp]; rfl
  | cons b bs ih =>
    intro s t u h hs hd hsp
    obtain ⟨_, s1, h0, h⟩ := Res.bind_eq_ok.1 h
    obtain ⟨w, h1, rfl⟩ := push_eq_ok.1 h0
    have h2 := busWrite_ok_sameBus h1 hs hd
    rw [← hsp] at h2
    rw [pushAll, (push_eq_ok (u := ())).2 ⟨_, h2, rfl⟩, Res.ok_bind]
    refine (ih (t := (t.setDevices w.devices).setSP (t.sp - 1)) h ?_ rfl (congrArg (· - 1) hsp)).trans rfl
    show t.slots = w.slots
    rw [(busWrite_keeps h1).1]; exact hs

/-! ## Resolvers and operands -/

theorem resolve_keeps {m : MemOperand} {s t : State} {r : Addr × Bool} (h : resolve m s = .ok r t) : t.stills = s.stills := by
  have rp : ∀ {p a s t}, readPtr p s = .ok a t → t.stills = s.stills := by
    intro p a s t h
    obtain ⟨lo, s1, h1, h⟩ := Res.bind_eq_ok.1 h
    obtain ⟨hi, s2, h2, h⟩ := Res.bind_eq_ok.1 h
    cases h
    exact (busRead_keeps h2).2.trans (busRead_keeps h1).2
  cases m <;> simp only [resolve] at h
  all_goals first
    | (cases h; rfl)
    | (obtain ⟨b, s1, h1, h⟩ := Res.bind_eq_ok.1 h; cases h; exact rp h1)

/-- Everything `Instr.loadOperand` can give: A, the immediate byte, or one bus read at the effective address. -/
theorem loadOperand_cases {i : Instr} {s t : State} {v : Byte} {xa : Bool} (h : i.loadOperand s = some (.ok (v, xa) t)) :
    (i.entry.mode = .acc ∧ v = s.a ∧ xa = false ∧ t = s) ∨
    (i.entry.mode = .imm ∧ (∃ op, encode i = [op, v]) ∧ xa = false ∧ t = s) ∨
    (∃ m ea w, i.memOperand = some m ∧ resolve m s = .ok (ea, xa) w ∧ busRead ea w = .ok v t) := by
  unfold Instr.loadOperand at h
  split at h
  · simp at h
    obtain ⟨⟨rfl, rfl⟩, rfl⟩ := h
    exact .inl ⟨by assumption, rfl, rfl, rfl⟩
  · simp at h
    obtain ⟨⟨rfl, rfl⟩, rfl⟩ := h
    exact .inr (.inl ⟨by assumption, ⟨_, by assumption⟩, rfl, rfl⟩)
  · simp only [Option.map_eq_some_iff] at h
    obtain ⟨m, hm, h⟩ := h
    obtain ⟨r, w, h1, h⟩ := Res.bind_eq_ok.1 h
    obtain ⟨v', w', h2, h⟩ := Res.bind_eq_ok.1 h
    cases h
    exact .inr (.inr ⟨m, _, w, hm, h1, h2⟩)

/-- `Instr.finish` in the terms of the meanings. -/
theorem finish_eq_advance (base len : Nat) (b : Bool) (t : State) :
    { t with pc := t.pc + BitVec.ofNat 16 len, cycles := t.cycles + (base + b.toNat) } =
      (t.advance base len).addCycles b.toNat := by
  simp [State.advance, State.addCycles, State.setPC, Nat.add_assoc]

end Sys2Proof.Machine
end

