-- ==== Sys2Proof/Laws/Faults.lean ====
section
/-! SUPPORT. Why a bus action or an instruction shape can fault, and that it keeps the slots and the devices' shapes. -/

namespace Sys2Proof.Machine

/-- A bus action that faults only at an address that is out of range (20_memory.md R83), and keeps the bus. -/
structure FaultsOutOfRange {α : Type} (h : State → Res α) : Prop where
  fault : ∀ s r, h s = .fault r → ∃ a, r = .deviceOutOfRange a ∧ s.inRange a = false
  keeps : ∀ s v t, h s = .ok v t → t.slots = s.slots ∧ t.shapes = s.shapes

/-- A register update: the slots and the devices stay. -/
def OffBus (f : State → State) : Prop := ∀ s : State, (f s).slots = s.slots ∧ (f s).devices = s.devices

namespace FaultsOutOfRange

theorem bind {α β : Type} {h : State → Res α} {k : α → State → Res β} (hh : FaultsOutOfRange h)
    (hk : ∀ v, FaultsOutOfRange (k v)) : FaultsOutOfRange (fun s => (h s).bind k) := by
  constructor
  · intro s r e
    rcases hs : h s with ⟨v, t⟩ | r'
    · rw [hs] at e
      obtain ⟨a, rfl, ha⟩ := (hk v).fault t r e
      obtain ⟨h1, h2⟩ := hh.keeps _ _ _ hs
      exact ⟨a, rfl, by rw [← inRange_congr h1 h2]; exact ha⟩
    · rw [hs] at e; cases e; exact hh.fault _ _ hs
  · intro s v t e
    obtain ⟨w, u, h1, h2⟩ := Res.bind_eq_ok.1 e
    obtain ⟨a1, a2⟩ := hh.keeps _ _ _ h1
    obtain ⟨b1, b2⟩ := (hk w).keeps _ _ _ h2
    exact ⟨b1.trans a1, b2.trans a2⟩

theorem pure {α : Type} {v : State → α} {f : State → State} (hf : OffBus f) :
    FaultsOutOfRange (fun s => .ok (v s) (f s)) :=
  ⟨fun s r e => (by cases e), fun s v t e => (by cases e; exact ⟨(hf s).1, by unfold State.shapes; rw [(hf s).2]⟩)⟩

theorem unit {f : State → State} (hf : OffBus f) : FaultsOutOfRange (fun s => Res.ok () (f s)) := pure (v := fun _ => ()) hf

theorem after {α : Type} {h : State → Res α} {f : State → State} (hh : FaultsOutOfRange h) (hf : OffBus f) :
    FaultsOutOfRange (fun s => h (f s)) := bind (h := fun s => .ok () (f s)) (k := fun _ s => h s) (unit hf) (fun _ => hh)

/-- An action with an argument taken from the state. -/
theorem dep {α β : Type} {g : State → β} {h : β → State → Res α} (hh : ∀ b, FaultsOutOfRange (h b)) :
    FaultsOutOfRange (fun s => h (g s) s) :=
  ⟨fun s r e => (hh _).fault s r e, fun s v t e => (hh _).keeps s v t e⟩

theorem read (a : Addr) : FaultsOutOfRange (busRead a) := by
  constructor
  · intro s r e
    unfold busRead at e
    split at e
    · cases e
    · rename_i d k n c hs
      split at e
      · cases e
      · cases e; exact ⟨a, rfl, by unfold State.inRange; rw [hs]; exact decide_eq_false ‹_›⟩
    · cases e
  · intro s v t e
    obtain ⟨h1, h2⟩ := busRead_keeps e
    exact ⟨by rw [h1]; rfl, shapes_of_stills h2⟩

theorem write (a : Addr) (v : Byte) : FaultsOutOfRange (busWrite a v) := by
  constructor
  · intro s r e
    unfold busWrite at e
    split at e
    · cases e
    · rename_i d k n c hs
      split at e
      · cases e
      · split at e
        · cases e
        · cases e; exact ⟨a, rfl, by unfold State.inRange; rw [hs]; exact decide_eq_false ‹_›⟩
    · split at e <;> cases e
  · intro s v t e
    obtain ⟨h1, h2⟩ := busWrite_keeps e
    exact ⟨by rw [h1]; rfl, h2⟩

theorem push (v : Byte) : FaultsOutOfRange (push v) :=
  bind (dep (g := fun s => stackAddr s.sp) (h := fun a s => busWrite a v s) (fun a => write a v))
    (fun _ => unit (f := fun s => s.setSP (s.sp - 1)) (fun _ => ⟨rfl, rfl⟩))

theorem pop : FaultsOutOfRange pop :=
  after (h := fun s => busRead (stackAddr s.sp) s) (f := fun s => s.setSP (s.sp + 1))
    (dep (g := fun s => stackAddr s.sp) (h := fun a s => busRead a s) (fun a => read a)) (fun _ => ⟨rfl, rfl⟩)

theorem pushAddr (a : Addr) : FaultsOutOfRange (pushAddr a) := bind (push _) (fun _ => push _)

theorem popAddr : FaultsOutOfRange popAddr :=
  bind pop (fun _ => bind pop (fun _ => pure (fun _ => ⟨rfl, rfl⟩)))

theorem readWord (a : Addr) : FaultsOutOfRange (readWord a) :=
  bind (read _) (fun _ => bind (read _) (fun _ => pure (fun _ => ⟨rfl, rfl⟩)))

theorem readPtr (a : Addr) : FaultsOutOfRange (readPtr a) :=
  bind (read _) (fun _ => bind (read _) (fun _ => pure (fun _ => ⟨rfl, rfl⟩)))

theorem resolve (m : MemOperand) : FaultsOutOfRange (resolve m) := by
  cases m
  case ind a => exact bind (readPtr _) (fun _ => pure (fun _ => ⟨rfl, rfl⟩))
  case izx a =>
    exact dep (g := fun s => zext16 (a + s.x)) (h := fun p s => (Machine.readPtr p s).bind fun ea s => .ok (ea, false) s)
      (fun _ => bind (readPtr _) (fun _ => pure (fun _ => ⟨rfl, rfl⟩)))
  case izy a => exact bind (readPtr _) (fun b => pure (f := fun s => s) (fun _ => ⟨rfl, rfl⟩))
  all_goals exact pure (f := fun s => s) (fun _ => ⟨rfl, rfl⟩)

theorem interruptEntry (v : Addr) (b : Bool) : FaultsOutOfRange (interruptEntry v b) :=
  bind (dep (g := fun s => s.pc) (h := fun a s => Machine.pushAddr a s) pushAddr) (fun _ =>
    bind (dep (g := fun s => if b then pushedByInstruction s.p else pushedByInterrupt s.p)
      (h := fun a s => Machine.push a s) push) (fun _ =>
    bind (after (readWord v) (f := fun s => s.setP (putFlag .i true s.p)) (fun _ => ⟨rfl, rfl⟩))
      (fun _ => pure (fun _ => ⟨rfl, rfl⟩))))

theorem interruptReturn : FaultsOutOfRange interruptReturn :=
  bind pop (fun v => bind (after popAddr (f := fun s => s.setP (statusOfPopped v)) (fun _ => ⟨rfl, rfl⟩))
    (fun _ => pure (fun _ => ⟨rfl, rfl⟩)))

/-- The handler of a read-modify-write. -/
theorem modify (ea : Addr) (f : Byte → Byte → Byte × Byte) (v : Byte) :
    FaultsOutOfRange (fun s => busWrite ea (f v s.p).1 (s.setP (f v s.p).2)) :=
  dep (g := fun s => s.p) (h := fun p s => busWrite ea (f v p).1 (s.setP (f v p).2))
    (fun p => after (write _ _) (f := fun s => s.setP (f v p).2) (fun _ => ⟨rfl, rfl⟩))

end FaultsOutOfRange

end Sys2Proof.Machine
end

