-- ==== Sys2Proof/Laws/Host.lean ====
section
/-! SUPPORT. What a host operation can do in each phase of a session (spec 70_reset_and_hazards.md R412, R420). -/

namespace Sys2Proof.Machine

@[simp] theorem Session.state_building (s : State) : (Session.building s).state = s := rfl
@[simp] theorem Session.state_running (s : State) : (Session.running s).state = s := rfl
@[simp] theorem Session.state_update (f : State → State) (h : Session) : (h.update f).state = f h.state := by
  cases h <;> rfl
@[simp] theorem Session.state_start (w : ResetDraw) : (Session.start w).state = State.constructed w := rfl

theorem asRunning_eq_next {r : Result} {k : Session} : asRunning r = .next k ↔ ∃ t, r = .next t ∧ k = .running t := by
  cases r <;> simp [asRunning, eq_comm]

@[simp] theorem constructed_slot (w : ResetDraw) (page : Fin 256) : (State.constructed w).slots.get page = none := by
  simp [State.constructed, Vector.get]

/-- While a platform is being built an operation is the reset that ends construction, or no step and the building goes on. -/
theorem applyHost_building {op : HostOp} {s : State} {k : Session} (h : applyHost op (.building s) = .next k) :
    (∃ w t, op = .reset w ∧ (s.cpuReset w).toResult = .next t ∧ k = .running t) ∨
      (op ≠ .step ∧ ∃ t, k = .building t) := by
  cases op with
  | step => cases h
  | reset w =>
    obtain ⟨t, ht, rfl⟩ := asRunning_eq_next.1 h
    exact .inl ⟨w, t, rfl, ht, rfl⟩
  | _ => exact .inr ⟨nofun, _, (Host.Outcome.next.inj h).symm⟩

/-- A run that gets past an operation got an answer from it. -/
theorem runHost_cons {op : HostOp} {ops : List HostOp} {h k : Session} (e : runHost (op :: ops) h = .next k) :
    ∃ m, applyHost op h = .next m ∧ runHost ops m = .next k := by
  unfold runHost at e
  split at e
  · exact ⟨_, ‹_›, e⟩
  · cases e
  · cases e

end Sys2Proof.Machine
end

