-- ==== Sys2Proof/Laws/PerInstr.lean ====
section
/-! SUPPORT. The per-instruction family DecodesBack: the decoder reads an instruction's own bytes back as that instruction
(spec 30_encoding.md R110 to R116). -/

namespace Sys2Proof

/-- A word is made of its two halves. -/
theorem mkAddr_hiByte_loByte (a : Addr) : mkAddr (hiByte a) (loByte a) = a := by
  apply BitVec.eq_of_toNat_eq
  have hl : a.toNat % 256 < 2 ^ 8 := by omega
  have := a.isLt
  simp only [mkAddr, hiByte, loByte, BitVec.toNat_append, BitVec.toNat_setWidth, BitVec.toNat_ushiftRight,
    Nat.shiftRight_eq_div_pow]
  rw [← Nat.shiftLeft_add_eq_or_of_lt hl, Nat.shiftLeft_eq]
  omega

/-- An offset that fits its byte is read back from it. -/
theorem offsetOfByte_byteOfOffset {offset : Int} (h : offsetFits offset = true) :
    offsetOfByte (byteOfOffset offset) = offset := by
  simp only [offsetFits, Bool.and_eq_true, decide_eq_true_eq] at h
  unfold offsetOfByte byteOfOffset
  rw [BitVec.toInt_ofInt]
  unfold Int.bmod
  simp only []
  split <;> omega

namespace Laws.DecodesBack

/-- What the family says of an instruction. -/
def Statement (i : Instr) : Prop :=
  i.wellFormed = true → ∀ rest, decode (encode i ++ rest) = .ok (i, rest)

/-- An instruction of format F3, from its slot of the opcode table. -/
theorem of_word {op : Byte} {f : Addr → Instr} {a : Addr} (he : encode (f a) = bytesF3 op a) (hl : (entryOf op).length = 3)
    (hs : ∀ l h, instrOf op l h = f (mkAddr h l)) : Statement (f a) := by
  intro _ rest
  rw [he]
  simp [decode, bytesF3, hl, hs, mkAddr_hiByte_loByte]

/-- A branch, from its slot of the opcode table. -/
theorem of_branch {op : Byte} {f : Int → Instr} {o : Int} (he : encode (f o) = [op, byteOfOffset o])
    (hw : (f o).wellFormed = offsetFits o) (hl : (entryOf op).length = 2)
    (hs : ∀ l h, instrOf op l h = f (offsetOfByte l)) : Statement (f o) := by
  intro h rest
  rw [he]
  simp [decode, hl, hs, offsetOfByte_byteOfOffset (hw ▸ h)]

theorem brk (pad : Byte) : Statement (.brk pad) := fun _ _ => rfl

theorem oraIndX (d : Byte) : Statement (.oraIndX d) := fun _ _ => rfl

theorem kil (op : Byte) : Statement (.kil op) := by
  intro h rest
  simp only [Instr.wellFormed, kilBytes, List.contains_iff_mem, List.mem_cons, List.not_mem_nil, or_false] at h
  rcases h with rfl | rfl | rfl | rfl | rfl | rfl | rfl | rfl | rfl | rfl | rfl | rfl
  all_goals rfl

theorem sloIndX (d : Byte) : Statement (.sloIndX d) := fun _ _ => rfl

theorem nopZp (op : Byte) (d : Byte) : Statement (.nopZp op d) := by
  intro h rest
  simp only [Instr.wellFormed, nopZpBytes, List.contains_iff_mem, List.mem_cons, List.not_mem_nil, or_false] at h
  rcases h with rfl | rfl | rfl
  all_goals rfl

theorem oraZp (d : Byte) : Statement (.oraZp d) := fun _ _ => rfl

theorem aslZp (d : Byte) : Statement (.aslZp d) := fun _ _ => rfl

theorem sloZp (d : Byte) : Statement (.sloZp d) := fun _ _ => rfl

theorem php : Statement .php := fun _ _ => rfl

theorem oraImm (d : Byte) : Statement (.oraImm d) := fun _ _ => rfl

theorem aslAcc : Statement .aslAcc := fun _ _ => rfl

theorem ancImm0B (d : Byte) : Statement (.ancImm0B d) := fun _ _ => rfl

theorem nopAbs (a : Addr) : Statement (.nopAbs a) :=
  of_word (f := .nopAbs) rfl rfl fun _ _ => rfl

theorem oraAbs (a : Addr) : Statement (.oraAbs a) :=
  of_word (f := .oraAbs) rfl rfl fun _ _ => rfl

theorem aslAbs (a : Addr) : Statement (.aslAbs a) :=
  of_word (f := .aslAbs) rfl rfl fun _ _ => rfl

theorem sloAbs (a : Addr) : Statement (.sloAbs a) :=
  of_word (f := .sloAbs) rfl rfl fun _ _ => rfl

theorem bpl (offset : Int) : Statement (.bpl offset) :=
  of_branch rfl rfl rfl fun _ _ => rfl

theorem oraIndY (d : Byte) : Statement (.oraIndY d) := fun _ _ => rfl

theorem sloIndY (d : Byte) : Statement (.sloIndY d) := fun _ _ => rfl

theorem nopZpX (op : Byte) (d : Byte) : Statement (.nopZpX op d) := by
  intro h rest
  simp only [Instr.wellFormed, nopZpXBytes, List.contains_iff_mem, List.mem_cons, List.not_mem_nil, or_false] at h
  rcases h with rfl | rfl | rfl | rfl | rfl | rfl
  all_goals rfl

theorem oraZpX (d : Byte) : Statement (.oraZpX d) := fun _ _ => rfl

theorem aslZpX (d : Byte) : Statement (.aslZpX d) := fun _ _ => rfl

theorem sloZpX (d : Byte) : Statement (.sloZpX d) := fun _ _ => rfl

theorem clc : Statement .clc := fun _ _ => rfl

theorem oraAbsY (a : Addr) : Statement (.oraAbsY a) :=
  of_word (f := .oraAbsY) rfl rfl fun _ _ => rfl

theorem nopImp (op : Byte) : Statement (.nopImp op) := by
  intro h rest
  simp only [Instr.wellFormed, nopImpBytes, List.contains_iff_mem, List.mem_cons, List.not_mem_nil, or_false] at h
  rcases h with rfl | rfl | rfl | rfl | rfl | rfl
  all_goals rfl

theorem sloAbsY (a : Addr) : Statement (.sloAbsY a) :=
  of_word (f := .sloAbsY) rfl rfl fun _ _ => rfl

theorem nopAbsX (op : Byte) (a : Addr) : Statement (.nopAbsX op a) := by
  intro h rest
  simp only [Instr.wellFormed, nopAbsXBytes, List.contains_iff_mem, List.mem_cons, List.not_mem_nil, or_false] at h
  rcases h with rfl | rfl | rfl | rfl | rfl | rfl
  all_goals exact of_word (f := fun a => .nopAbsX _ a) rfl rfl (fun _ _ => rfl) rfl rest

theorem oraAbsX (a : Addr) : Statement (.oraAbsX a) :=
  of_word (f := .oraAbsX) rfl rfl fun _ _ => rfl

theorem aslAbsX (a : Addr) : Statement (.aslAbsX a) :=
  of_word (f := .aslAbsX) rfl rfl fun _ _ => rfl

theorem sloAbsX (a : Addr) : Statement (.sloAbsX a) :=
  of_word (f := .sloAbsX) rfl rfl fun _ _ => rfl

theorem jsrAbs (a : Addr) : Statement (.jsrAbs a) :=
  of_word (f := .jsrAbs) rfl rfl fun _ _ => rfl

theorem andIndX (d : Byte) : Statement (.andIndX d) := fun _ _ => rfl

theorem rlaIndX (d : Byte) : Statement (.rlaIndX d) := fun _ _ => rfl

theorem bitZp (d : Byte) : Statement (.bitZp d) := fun _ _ => rfl

theorem andZp (d : Byte) : Statement (.andZp d) := fun _ _ => rfl

theorem rolZp (d : Byte) : Statement (.rolZp d) := fun _ _ => rfl

theorem rlaZp (d : Byte) : Statement (.rlaZp d) := fun _ _ => rfl

theorem plp : Statement .plp := fun _ _ => rfl

theorem andImm (d : Byte) : Statement (.andImm d) := fun _ _ => rfl

theorem rolAcc : Statement .rolAcc := fun _ _ => rfl

theorem ancImm2B (d : Byte) : Statement (.ancImm2B d) := fun _ _ => rfl

theorem bitAbs (a : Addr) : Statement (.bitAbs a) :=
  of_word (f := .bitAbs) rfl rfl fun _ _ => rfl

theorem andAbs (a : Addr) : Statement (.andAbs a) :=
  of_word (f := .andAbs) rfl rfl fun _ _ => rfl

theorem rolAbs (a : Addr) : Statement (.rolAbs a) :=
  of_word (f := .rolAbs) rfl rfl fun _ _ => rfl

theorem rlaAbs (a : Addr) : Statement (.rlaAbs a) :=
  of_word (f := .rlaAbs) rfl rfl fun _ _ => rfl

theorem bmi (offset : Int) : Statement (.bmi offset) :=
  of_branch rfl rfl rfl fun _ _ => rfl

theorem andIndY (d : Byte) : Statement (.andIndY d) := fun _ _ => rfl

theorem rlaIndY (d : Byte) : Statement (.rlaIndY d) := fun _ _ => rfl

theorem andZpX (d : Byte) : Statement (.andZpX d) := fun _ _ => rfl

theorem rolZpX (d : Byte) : Statement (.rolZpX d) := fun _ _ => rfl

theorem rlaZpX (d : Byte) : Statement (.rlaZpX d) := fun _ _ => rfl

theorem sec : Statement .sec := fun _ _ => rfl

theorem andAbsY (a : Addr) : Statement (.andAbsY a) :=
  of_word (f := .andAbsY) rfl rfl fun _ _ => rfl

theorem rlaAbsY (a : Addr) : Statement (.rlaAbsY a) :=
  of_word (f := .rlaAbsY) rfl rfl fun _ _ => rfl

theorem andAbsX (a : Addr) : Statement (.andAbsX a) :=
  of_word (f := .andAbsX) rfl rfl fun _ _ => rfl

theorem rolAbsX (a : Addr) : Statement (.rolAbsX a) :=
  of_word (f := .rolAbsX) rfl rfl fun _ _ => rfl

theorem rlaAbsX (a : Addr) : Statement (.rlaAbsX a) :=
  of_word (f := .rlaAbsX) rfl rfl fun _ _ => rfl

theorem rti : Statement .rti := fun _ _ => rfl

theorem eorIndX (d : Byte) : Statement (.eorIndX d) := fun _ _ => rfl

theorem sreIndX (d : Byte) : Statement (.sreIndX d) := fun _ _ => rfl

theorem eorZp (d : Byte) : Statement (.eorZp d) := fun _ _ => rfl

theorem lsrZp (d : Byte) : Statement (.lsrZp d) := fun _ _ => rfl

theorem sreZp (d : Byte) : Statement (.sreZp d) := fun _ _ => rfl

theorem pha : Statement .pha := fun _ _ => rfl

theorem eorImm (d : Byte) : Statement (.eorImm d) := fun _ _ => rfl

theorem lsrAcc : Statement .lsrAcc := fun _ _ => rfl

theorem alrImm (d : Byte) : Statement (.alrImm d) := fun _ _ => rfl

theorem jmpAbs (a : Addr) : Statement (.jmpAbs a) :=
  of_word (f := .jmpAbs) rfl rfl fun _ _ => rfl

theorem eorAbs (a : Addr) : Statement (.eorAbs a) :=
  of_word (f := .eorAbs) rfl rfl fun _ _ => rfl

theorem lsrAbs (a : Addr) : Statement (.lsrAbs a) :=
  of_word (f := .lsrAbs) rfl rfl fun _ _ => rfl

theorem sreAbs (a : Addr) : Statement (.sreAbs a) :=
  of_word (f := .sreAbs) rfl rfl fun _ _ => rfl

theorem bvc (offset : Int) : Statement (.bvc offset) :=
  of_branch rfl rfl rfl fun _ _ => rfl

theorem eorIndY (d : Byte) : Statement (.eorIndY d) := fun _ _ => rfl

theorem sreIndY (d : Byte) : Statement (.sreIndY d) := fun _ _ => rfl

theorem eorZpX (d : Byte) : Statement (.eorZpX d) := fun _ _ => rfl

theorem lsrZpX (d : Byte) : Statement (.lsrZpX d) := fun _ _ => rfl

theorem sreZpX (d : Byte) : Statement (.sreZpX d) := fun _ _ => rfl

theorem cli : Statement .cli := fun _ _ => rfl

theorem eorAbsY (a : Addr) : Statement (.eorAbsY a) :=
  of_word (f := .eorAbsY) rfl rfl fun _ _ => rfl

theorem sreAbsY (a : Addr) : Statement (.sreAbsY a) :=
  of_word (f := .sreAbsY) rfl rfl fun _ _ => rfl

theorem eorAbsX (a : Addr) : Statement (.eorAbsX a) :=
  of_word (f := .eorAbsX) rfl rfl fun _ _ => rfl

theorem lsrAbsX (a : Addr) : Statement (.lsrAbsX a) :=
  of_word (f := .lsrAbsX) rfl rfl fun _ _ => rfl

theorem sreAbsX (a : Addr) : Statement (.sreAbsX a) :=
  of_word (f := .sreAbsX) rfl rfl fun _ _ => rfl

theorem rts : Statement .rts := fun _ _ => rfl

theorem adcIndX (d : Byte) : Statement (.adcIndX d) := fun _ _ => rfl

theorem rraIndX (d : Byte) : Statement (.rraIndX d) := fun _ _ => rfl

theorem adcZp (d : Byte) : Statement (.adcZp d) := fun _ _ => rfl

theorem rorZp (d : Byte) : Statement (.rorZp d) := fun _ _ => rfl

theorem rraZp (d : Byte) : Statement (.rraZp d) := fun _ _ => rfl

theorem pla : Statement .pla := fun _ _ => rfl

theorem adcImm (d : Byte) : Statement (.adcImm d) := fun _ _ => rfl

theorem rorAcc : Statement .rorAcc := fun _ _ => rfl

theorem arrImm (d : Byte) : Statement (.arrImm d) := fun _ _ => rfl

theorem jmpInd (a : Addr) : Statement (.jmpInd a) :=
  of_word (f := .jmpInd) rfl rfl fun _ _ => rfl

theorem adcAbs (a : Addr) : Statement (.adcAbs a) :=
  of_word (f := .adcAbs) rfl rfl fun _ _ => rfl

theorem rorAbs (a : Addr) : Statement (.rorAbs a) :=
  of_word (f := .rorAbs) rfl rfl fun _ _ => rfl

theorem rraAbs (a : Addr) : Statement (.rraAbs a) :=
  of_word (f := .rraAbs) rfl rfl fun _ _ => rfl

theorem bvs (offset : Int) : Statement (.bvs offset) :=
  of_branch rfl rfl rfl fun _ _ => rfl

theorem adcIndY (d : Byte) : Statement (.adcIndY d) := fun _ _ => rfl

theorem rraIndY (d : Byte) : Statement (.rraIndY d) := fun _ _ => rfl

theorem adcZpX (d : Byte) : Statement (.adcZpX d) := fun _ _ => rfl

theorem rorZpX (d : Byte) : Statement (.rorZpX d) := fun _ _ => rfl

theorem rraZpX (d : Byte) : Statement (.rraZpX d) := fun _ _ => rfl

theorem sei : Statement .sei := fun _ _ => rfl

theorem adcAbsY (a : Addr) : Statement (.adcAbsY a) :=
  of_word (f := .adcAbsY) rfl rfl fun _ _ => rfl

theorem rraAbsY (a : Addr) : Statement (.rraAbsY a) :=
  of_word (f := .rraAbsY) rfl rfl fun _ _ => rfl

theorem adcAbsX (a : Addr) : Statement (.adcAbsX a) :=
  of_word (f := .adcAbsX) rfl rfl fun _ _ => rfl

theorem rorAbsX (a : Addr) : Statement (.rorAbsX a) :=
  of_word (f := .rorAbsX) rfl rfl fun _ _ => rfl

theorem rraAbsX (a : Addr) : Statement (.rraAbsX a) :=
  of_word (f := .rraAbsX) rfl rfl fun _ _ => rfl

theorem nopImm (op : Byte) (d : Byte) : Statement (.nopImm op d) := by
  intro h rest
  simp only [Instr.wellFormed, nopImmBytes, List.contains_iff_mem, List.mem_cons, List.not_mem_nil, or_false] at h
  rcases h with rfl | rfl | rfl | rfl | rfl
  all_goals rfl

theorem staIndX (d : Byte) : Statement (.staIndX d) := fun _ _ => rfl

theorem saxIndX (d : Byte) : Statement (.saxIndX d) := fun _ _ => rfl

theorem styZp (d : Byte) : Statement (.styZp d) := fun _ _ => rfl

theorem staZp (d : Byte) : Statement (.staZp d) := fun _ _ => rfl

theorem stxZp (d : Byte) : Statement (.stxZp d) := fun _ _ => rfl

theorem saxZp (d : Byte) : Statement (.saxZp d) := fun _ _ => rfl

theorem dey : Statement .dey := fun _ _ => rfl

theorem txa : Statement .txa := fun _ _ => rfl

theorem xaaImm (d : Byte) : Statement (.xaaImm d) := fun _ _ => rfl

theorem styAbs (a : Addr) : Statement (.styAbs a) :=
  of_word (f := .styAbs) rfl rfl fun _ _ => rfl

theorem staAbs (a : Addr) : Statement (.staAbs a) :=
  of_word (f := .staAbs) rfl rfl fun _ _ => rfl

theorem stxAbs (a : Addr) : Statement (.stxAbs a) :=
  of_word (f := .stxAbs) rfl rfl fun _ _ => rfl

theorem saxAbs (a : Addr) : Statement (.saxAbs a) :=
  of_word (f := .saxAbs) rfl rfl fun _ _ => rfl

theorem bcc (offset : Int) : Statement (.bcc offset) :=
  of_branch rfl rfl rfl fun _ _ => rfl

theorem staIndY (d : Byte) : Statement (.staIndY d) := fun _ _ => rfl

theorem ahxIndY (d : Byte) : Statement (.ahxIndY d) := fun _ _ => rfl

theorem styZpX (d : Byte) : Statement (.styZpX d) := fun _ _ => rfl

theorem staZpX (d : Byte) : Statement (.staZpX d) := fun _ _ => rfl

theorem stxZpY (d : Byte) : Statement (.stxZpY d) := fun _ _ => rfl

theorem saxZpY (d : Byte) : Statement (.saxZpY d) := fun _ _ => rfl

theorem tya : Statement .tya := fun _ _ => rfl

theorem staAbsY (a : Addr) : Statement (.staAbsY a) :=
  of_word (f := .staAbsY) rfl rfl fun _ _ => rfl

theorem txs : Statement .txs := fun _ _ => rfl

theorem tasAbsY (a : Addr) : Statement (.tasAbsY a) :=
  of_word (f := .tasAbsY) rfl rfl fun _ _ => rfl

theorem shyAbsX (a : Addr) : Statement (.shyAbsX a) :=
  of_word (f := .shyAbsX) rfl rfl fun _ _ => rfl

theorem staAbsX (a : Addr) : Statement (.staAbsX a) :=
  of_word (f := .staAbsX) rfl rfl fun _ _ => rfl

theorem shxAbsY (a : Addr) : Statement (.shxAbsY a) :=
  of_word (f := .shxAbsY) rfl rfl fun _ _ => rfl

theorem ahxAbsY (a : Addr) : Statement (.ahxAbsY a) :=
  of_word (f := .ahxAbsY) rfl rfl fun _ _ => rfl

theorem ldyImm (d : Byte) : Statement (.ldyImm d) := fun _ _ => rfl

theorem ldaIndX (d : Byte) : Statement (.ldaIndX d) := fun _ _ => rfl

theorem ldxImm (d : Byte) : Statement (.ldxImm d) := fun _ _ => rfl

theorem laxIndX (d : Byte) : Statement (.laxIndX d) := fun _ _ => rfl

theorem ldyZp (d : Byte) : Statement (.ldyZp d) := fun _ _ => rfl

theorem ldaZp (d : Byte) : Statement (.ldaZp d) := fun _ _ => rfl

theorem ldxZp (d : Byte) : Statement (.ldxZp d) := fun _ _ => rfl

theorem laxZp (d : Byte) : Statement (.laxZp d) := fun _ _ => rfl

theorem tay : Statement .tay := fun _ _ => rfl

theorem ldaImm (d : Byte) : Statement (.ldaImm d) := fun _ _ => rfl

theorem tax : Statement .tax := fun _ _ => rfl

theorem laxImm (d : Byte) : Statement (.laxImm d) := fun _ _ => rfl

theorem ldyAbs (a : Addr) : Statement (.ldyAbs a) :=
  of_word (f := .ldyAbs) rfl rfl fun _ _ => rfl

theorem ldaAbs (a : Addr) : Statement (.ldaAbs a) :=
  of_word (f := .ldaAbs) rfl rfl fun _ _ => rfl

theorem ldxAbs (a : Addr) : Statement (.ldxAbs a) :=
  of_word (f := .ldxAbs) rfl rfl fun _ _ => rfl

theorem laxAbs (a : Addr) : Statement (.laxAbs a) :=
  of_word (f := .laxAbs) rfl rfl fun _ _ => rfl

theorem bcs (offset : Int) : Statement (.bcs offset) :=
  of_branch rfl rfl rfl fun _ _ => rfl

theorem ldaIndY (d : Byte) : Statement (.ldaIndY d) := fun _ _ => rfl

theorem laxIndY (d : Byte) : Statement (.laxIndY d) := fun _ _ => rfl

theorem ldyZpX (d : Byte) : Statement (.ldyZpX d) := fun _ _ => rfl

theorem ldaZpX (d : Byte) : Statement (.ldaZpX d) := fun _ _ => rfl

theorem ldxZpY (d : Byte) : Statement (.ldxZpY d) := fun _ _ => rfl

theorem laxZpY (d : Byte) : Statement (.laxZpY d) := fun _ _ => rfl

theorem clv : Statement .clv := fun _ _ => rfl

theorem ldaAbsY (a : Addr) : Statement (.ldaAbsY a) :=
  of_word (f := .ldaAbsY) rfl rfl fun _ _ => rfl

theorem tsx : Statement .tsx := fun _ _ => rfl

theorem lasAbsY (a : Addr) : Statement (.lasAbsY a) :=
  of_word (f := .lasAbsY) rfl rfl fun _ _ => rfl

theorem ldyAbsX (a : Addr) : Statement (.ldyAbsX a) :=
  of_word (f := .ldyAbsX) rfl rfl fun _ _ => rfl

theorem ldaAbsX (a : Addr) : Statement (.ldaAbsX a) :=
  of_word (f := .ldaAbsX) rfl rfl fun _ _ => rfl

theorem ldxAbsY (a : Addr) : Statement (.ldxAbsY a) :=
  of_word (f := .ldxAbsY) rfl rfl fun _ _ => rfl

theorem laxAbsY (a : Addr) : Statement (.laxAbsY a) :=
  of_word (f := .laxAbsY) rfl rfl fun _ _ => rfl

theorem cpyImm (d : Byte) : Statement (.cpyImm d) := fun _ _ => rfl

theorem cmpIndX (d : Byte) : Statement (.cmpIndX d) := fun _ _ => rfl

theorem dcpIndX (d : Byte) : Statement (.dcpIndX d) := fun _ _ => rfl

theorem cpyZp (d : Byte) : Statement (.cpyZp d) := fun _ _ => rfl

theorem cmpZp (d : Byte) : Statement (.cmpZp d) := fun _ _ => rfl

theorem decZp (d : Byte) : Statement (.decZp d) := fun _ _ => rfl

theorem dcpZp (d : Byte) : Statement (.dcpZp d) := fun _ _ => rfl

theorem iny : Statement .iny := fun _ _ => rfl

theorem cmpImm (d : Byte) : Statement (.cmpImm d) := fun _ _ => rfl

theorem dex : Statement .dex := fun _ _ => rfl

theorem axsImm (d : Byte) : Statement (.axsImm d) := fun _ _ => rfl

theorem cpyAbs (a : Addr) : Statement (.cpyAbs a) :=
  of_word (f := .cpyAbs) rfl rfl fun _ _ => rfl

theorem cmpAbs (a : Addr) : Statement (.cmpAbs a) :=
  of_word (f := .cmpAbs) rfl rfl fun _ _ => rfl

theorem decAbs (a : Addr) : Statement (.decAbs a) :=
  of_word (f := .decAbs) rfl rfl fun _ _ => rfl

theorem dcpAbs (a : Addr) : Statement (.dcpAbs a) :=
  of_word (f := .dcpAbs) rfl rfl fun _ _ => rfl

theorem bne (offset : Int) : Statement (.bne offset) :=
  of_branch rfl rfl rfl fun _ _ => rfl

theorem cmpIndY (d : Byte) : Statement (.cmpIndY d) := fun _ _ => rfl

theorem dcpIndY (d : Byte) : Statement (.dcpIndY d) := fun _ _ => rfl

theorem cmpZpX (d : Byte) : Statement (.cmpZpX d) := fun _ _ => rfl

theorem decZpX (d : Byte) : Statement (.decZpX d) := fun _ _ => rfl

theorem dcpZpX (d : Byte) : Statement (.dcpZpX d) := fun _ _ => rfl

theorem cld : Statement .cld := fun _ _ => rfl

theorem cmpAbsY (a : Addr) : Statement (.cmpAbsY a) :=
  of_word (f := .cmpAbsY) rfl rfl fun _ _ => rfl

theorem dcpAbsY (a : Addr) : Statement (.dcpAbsY a) :=
  of_word (f := .dcpAbsY) rfl rfl fun _ _ => rfl

theorem cmpAbsX (a : Addr) : Statement (.cmpAbsX a) :=
  of_word (f := .cmpAbsX) rfl rfl fun _ _ => rfl

theorem decAbsX (a : Addr) : Statement (.decAbsX a) :=
  of_word (f := .decAbsX) rfl rfl fun _ _ => rfl

theorem dcpAbsX (a : Addr) : Statement (.dcpAbsX a) :=
  of_word (f := .dcpAbsX) rfl rfl fun _ _ => rfl

theorem cpxImm (d : Byte) : Statement (.cpxImm d) := fun _ _ => rfl

theorem sbcIndX (d : Byte) : Statement (.sbcIndX d) := fun _ _ => rfl

theorem iscIndX (d : Byte) : Statement (.iscIndX d) := fun _ _ => rfl

theorem cpxZp (d : Byte) : Statement (.cpxZp d) := fun _ _ => rfl

theorem sbcZp (d : Byte) : Statement (.sbcZp d) := fun _ _ => rfl

theorem incZp (d : Byte) : Statement (.incZp d) := fun _ _ => rfl

theorem iscZp (d : Byte) : Statement (.iscZp d) := fun _ _ => rfl

theorem inx : Statement .inx := fun _ _ => rfl

theorem sbcImm (d : Byte) : Statement (.sbcImm d) := fun _ _ => rfl

theorem nop : Statement .nop := fun _ _ => rfl

theorem sbcImmEB (d : Byte) : Statement (.sbcImmEB d) := fun _ _ => rfl

theorem cpxAbs (a : Addr) : Statement (.cpxAbs a) :=
  of_word (f := .cpxAbs) rfl rfl fun _ _ => rfl

theorem sbcAbs (a : Addr) : Statement (.sbcAbs a) :=
  of_word (f := .sbcAbs) rfl rfl fun _ _ => rfl

theorem incAbs (a : Addr) : Statement (.incAbs a) :=
  of_word (f := .incAbs) rfl rfl fun _ _ => rfl

theorem iscAbs (a : Addr) : Statement (.iscAbs a) :=
  of_word (f := .iscAbs) rfl rfl fun _ _ => rfl

theorem beq (offset : Int) : Statement (.beq offset) :=
  of_branch rfl rfl rfl fun _ _ => rfl

theorem sbcIndY (d : Byte) : Statement (.sbcIndY d) := fun _ _ => rfl

theorem iscIndY (d : Byte) : Statement (.iscIndY d) := fun _ _ => rfl

theorem sbcZpX (d : Byte) : Statement (.sbcZpX d) := fun _ _ => rfl

theorem incZpX (d : Byte) : Statement (.incZpX d) := fun _ _ => rfl

theorem iscZpX (d : Byte) : Statement (.iscZpX d) := fun _ _ => rfl

theorem sed : Statement .sed := fun _ _ => rfl

theorem sbcAbsY (a : Addr) : Statement (.sbcAbsY a) :=
  of_word (f := .sbcAbsY) rfl rfl fun _ _ => rfl

theorem iscAbsY (a : Addr) : Statement (.iscAbsY a) :=
  of_word (f := .iscAbsY) rfl rfl fun _ _ => rfl

theorem sbcAbsX (a : Addr) : Statement (.sbcAbsX a) :=
  of_word (f := .sbcAbsX) rfl rfl fun _ _ => rfl

theorem incAbsX (a : Addr) : Statement (.incAbsX a) :=
  of_word (f := .incAbsX) rfl rfl fun _ _ => rfl

theorem iscAbsX (a : Addr) : Statement (.iscAbsX a) :=
  of_word (f := .iscAbsX) rfl rfl fun _ _ => rfl

end Laws.DecodesBack

end Sys2Proof
end

