-- ==== Sys2Proof/Laws/Simulate.lean ====
section
/-! SUPPORT. Two runs that differ in the cycle counter, and perhaps in the Break bit of P, stay alike: bus actions and
instruction shapes take related states to related answers (spec 10_state.md R38, R42). -/

namespace Sys2Proof.Machine

/-- Status bytes that are equal, or (when `w`) agree on every flag but Break. -/
def StatusLike (w : Bool) (p q : Byte) : Prop := ∀ g : Flag, (w = true ∧ g = .b) ∨ getFlag g q = getFlag g p

/-- States that differ by `n` cycles, and (when `w`) in the Break bit at most. -/
def Alike (w : Bool) (n : Nat) (s s' : State) : Prop :=
  s' = { s with p := s'.p, cycles := s.cycles + n } ∧ StatusLike w s.p s'.p

/-- Bus answers with one value or one fault, in alike states. -/
inductive AlikeRes (w : Bool) (n : Nat) {α : Type} : Res α → Res α → Prop where
  | ok (v : α) {s s' : State} : Alike w n s s' → AlikeRes w n (.ok v s) (.ok v s')
  | fault (r : Fault) : AlikeRes w n (.fault r) (.fault r)

/-- Answers of a meaning in alike states. -/
inductive AlikeResult (w : Bool) (n : Nat) : Result → Result → Prop where
  | next {s s' : State} : Alike w n s s' → AlikeResult w n (.next s) (.next s')
  | fault (r : Fault) : AlikeResult w n (.fault r) (.fault r)

/-- A bus action that takes alike states to alike answers. -/
def Blind {α : Type} (h : State → Res α) : Prop := ∀ w n s s', Alike w n s s' → AlikeRes w n (h s) (h s')

/-- A state update that takes alike states to alike states. -/
def BlindUpdate (f : State → State) : Prop := ∀ w n s s', Alike w n s s' → Alike w n (f s) (f s')

/-- A meaning that takes alike states to alike answers. -/
def BlindMeaning (h : State → Result) : Prop := ∀ w n s s', Alike w n s s' → AlikeResult w n (h s) (h s')

/-- A function of the status byte that does not read Break. -/
def BlindFlags (f : Byte → Byte) : Prop := ∀ w p q, StatusLike w p q → StatusLike w (f p) (f q)

/-- A result and status that do not read Break. -/
def BlindPair (f : Byte → Byte × Byte) : Prop :=
  ∀ w p q, StatusLike w p q → (f q).1 = (f p).1 ∧ StatusLike w (f p).2 (f q).2

/-! ## Flags -/

theorem StatusLike.get {w : Bool} {p q : Byte} (h : StatusLike w p q) {g : Flag} (hg : g ≠ .b) : getFlag g q = getFlag g p := by
  rcases h g with ⟨_, rfl⟩ | h
  · exact absurd rfl hg
  · exact h

theorem blindFlags_put (f : Flag) (on : Bool) : BlindFlags (putFlag f on) := by
  intro w p q h g
  rcases h g with h | h
  · exact .inl h
  · right; rw [getFlag_putFlag, getFlag_putFlag, h]

theorem blindFlags_setZN (v : Byte) : BlindFlags (setZN v) := fun _ _ _ h => blindFlags_put _ _ _ _ _ (blindFlags_put _ _ _ _ _ h)

theorem blindPair_addBinary (a m : Byte) (c : Bool) : BlindPair (addBinary a m c) := fun _ _ _ h =>
  ⟨rfl, blindFlags_setZN _ _ _ _ (blindFlags_put _ _ _ _ _ (blindFlags_put _ _ _ _ _ h))⟩

theorem blindPair_addDecimal (a m : Byte) (c : Bool) : BlindPair (addDecimal a m c) := fun _ _ _ h =>
  ⟨rfl, blindFlags_put _ _ _ _ _ (blindFlags_put _ _ _ _ _ (blindFlags_put _ _ _ _ _ (blindFlags_put _ _ _ _ _ h)))⟩

theorem blindPair_subDecimal (a m : Byte) (c : Bool) : BlindPair (subDecimal a m c) := fun _ _ _ h =>
  ⟨rfl, (blindPair_addBinary _ _ _ _ _ _ h).2⟩

theorem pushedByInstruction_alike {w : Bool} {p q : Byte} (h : StatusLike w p q) :
    pushedByInstruction q = pushedByInstruction p := by
  apply status_ext; intro f
  rw [pushedByInstruction, pushedByInstruction, getFlag_pushedByInstruction, getFlag_pushedByInstruction]
  cases f <;> first | rfl | (simp; exact h.get (by decide))

theorem pushedByInterrupt_alike {w : Bool} {p q : Byte} (h : StatusLike w p q) :
    pushedByInterrupt q = pushedByInterrupt p := by
  apply status_ext; intro f
  rw [pushedByInterrupt, pushedByInterrupt, getFlag_pushedByInterrupt, getFlag_pushedByInterrupt]
  cases f <;> first | rfl | (simp; exact h.get (by decide))

theorem branchCond_alike {w : Bool} {p q : Byte} (h : StatusLike w p q) (m : Mnemonic) : branchCond m q = branchCond m p := by
  have c := h.get (g := .c) (by decide)
  have z := h.get (g := .z) (by decide)
  have n := h.get (g := .n) (by decide)
  have v := h.get (g := .v) (by decide)
  cases m <;> simp [branchCond, c, z, n, v]

/-! ## Sequencing -/

theorem AlikeRes.bind {w : Bool} {n : Nat} {α β : Type} {r r' : Res α} {k k' : α → State → Res β} (h : AlikeRes w n r r')
    (hk : ∀ v s s', Alike w n s s' → AlikeRes w n (k v s) (k' v s')) : AlikeRes w n (r.bind k) (r'.bind k') := by
  cases h with
  | ok v h => exact hk v _ _ h
  | fault r => exact .fault r

theorem Blind.bind {α β : Type} {h : State → Res α} {k : α → State → Res β} (hh : Blind h) (hk : ∀ v, Blind (k v)) :
    Blind (fun s => (h s).bind k) :=
  fun w n s s' e => (hh w n s s' e).bind (fun v => hk v w n)

theorem Blind.pure {α : Type} (v : α) {f : State → State} (hf : BlindUpdate f) : Blind (fun s => Res.ok v (f s)) :=
  fun w n s s' e => .ok v (hf w n s s' e)

theorem Blind.after {α : Type} {h : State → Res α} {f : State → State} (hh : Blind h) (hf : BlindUpdate f) :
    Blind (fun s => h (f s)) := fun w n s s' e => hh w n _ _ (hf w n s s' e)

/-- An action whose argument is a register. -/
theorem Blind.dep {α β : Type} {g : State → β} {h : β → State → Res α}
    (hg : ∀ s p c, g { s with p := p, cycles := c } = g s) (hh : ∀ b, Blind (h b)) : Blind (fun s => h (g s) s) :=
  fun w n s s' e => by
    dsimp only
    rw [show g s' = g s by rw [e.1]; exact hg _ _ _]
    exact hh _ w n s s' e

theorem BlindUpdate.comp {f g : State → State} (hf : BlindUpdate f) (hg : BlindUpdate g) : BlindUpdate (fun s => f (g s)) :=
  fun w n s s' e => hf w n _ _ (hg w n s s' e)

/-- An update whose argument is a register. -/
theorem BlindUpdate.dep {β : Type} {g : State → β} {h : β → State → State}
    (hg : ∀ s p c, g { s with p := p, cycles := c } = g s) (hh : ∀ b, BlindUpdate (h b)) : BlindUpdate (fun s => h (g s) s) :=
  fun w n s s' e => by
    dsimp only
    rw [show g s' = g s by rw [e.1]; exact hg _ _ _]
    exact hh _ w n s s' e

theorem Blind.toResult {h : State → Res Unit} (hh : Blind h) : BlindMeaning (fun s => (h s).toResult) := by
  intro w n s s' e
  have := hh w n s s' e
  dsimp only
  generalize h s = r, h s' = r' at this
  cases this with
  | ok v h => exact .next h
  | fault r => exact .fault r

/-! ## Updates -/

theorem blind_id : BlindUpdate (fun s => s) := fun _ _ _ _ e => e
theorem blind_setA (v : Byte) : BlindUpdate (State.setA v) := fun _ _ _ _ e => ⟨congrArg (State.setA v) e.1, e.2⟩
theorem blind_setX (v : Byte) : BlindUpdate (State.setX v) := fun _ _ _ _ e => ⟨congrArg (State.setX v) e.1, e.2⟩
theorem blind_setY (v : Byte) : BlindUpdate (State.setY v) := fun _ _ _ _ e => ⟨congrArg (State.setY v) e.1, e.2⟩
theorem blind_setSP (v : Byte) : BlindUpdate (State.setSP v) := fun _ _ _ _ e => ⟨congrArg (State.setSP v) e.1, e.2⟩
theorem blind_setPC (v : Addr) : BlindUpdate (State.setPC v) := fun _ _ _ _ e => ⟨congrArg (State.setPC v) e.1, e.2⟩
theorem blind_setHalted (v : Bool) : BlindUpdate (State.setHalted v) :=
  fun _ _ _ _ e => ⟨congrArg (State.setHalted v) e.1, e.2⟩
theorem blind_setIntr (v : Intr) : BlindUpdate (State.setIntr v) := fun _ _ _ _ e => ⟨congrArg (State.setIntr v) e.1, e.2⟩
theorem blind_addCycles (k : Nat) : BlindUpdate (State.addCycles k) := fun _ n s _ e =>
  ⟨by rw [e.1]; simp only [State.addCycles]; rw [Nat.add_right_comm], e.2⟩

/-- Loading P with a byte both runs hold. -/
theorem blind_setP (v : Byte) : BlindUpdate (State.setP v) := fun _ n s s' e => ⟨by rw [e.1]; rfl, fun g => .inr rfl⟩

theorem blind_flags {f : Byte → Byte} (hf : BlindFlags f) : BlindUpdate (fun s => s.setP (f s.p)) :=
  fun _ _ _ _ e => ⟨by rw [e.1]; rfl, hf _ _ _ e.2⟩

theorem blind_pair {f : Byte → Byte × Byte} (hf : BlindPair f) : BlindUpdate (fun s => (s.setP (f s.p).2).setA (f s.p).1) :=
  fun w n s s' e => by
    obtain ⟨h1, h2⟩ := hf _ _ _ e.2
    refine ⟨?_, h2⟩
    dsimp only
    rw [h1]
    have e1 := e.1
    simp only [State.setP, State.setA] at *
    rw [e1]

theorem blind_advance (b l : Nat) : BlindUpdate (State.advance b l) :=
  BlindUpdate.comp (BlindUpdate.dep (g := fun s => s.pc + BitVec.ofNat 16 l) (h := fun p s => s.setPC p) (fun _ _ _ => rfl)
    (fun p => blind_setPC p)) (g := State.addCycles b) (blind_addCycles b)

/-! ## Bus actions -/

theorem blind_read (a : Addr) : Blind (busRead a) := by
  intro w n s s' e
  rw [busRead_sameBus (s := s) (t := s') (by rw [e.1]) (by rw [e.1])]
  rcases h : busRead a s with ⟨v, t⟩ | r
  · refine .ok v ⟨?_, ?_⟩
    · rw [(busRead_keeps h).1, e.1]; rfl
    · rw [(busRead_keeps h).1]; exact e.2
  · exact .fault r

theorem blind_write (a : Addr) (v : Byte) : Blind (busWrite a v) := by
  intro w n s s' e
  rw [busWrite_sameBus (s := s) (t := s') (by rw [e.1]) (by rw [e.1])]
  rcases h : busWrite a v s with ⟨u, t⟩ | r
  · refine .ok u ⟨?_, ?_⟩
    · rw [(busWrite_keeps h).1, e.1]; rfl
    · rw [(busWrite_keeps h).1]; exact e.2
  · exact .fault r

theorem blind_push (v : Byte) : Blind (push v) :=
  Blind.bind (k := fun _ s => .ok () (s.setSP (s.sp - 1)))
    (Blind.dep (g := fun s => stackAddr s.sp) (h := fun a s => busWrite a v s) (fun _ _ _ => rfl) (fun a => blind_write a v))
    (fun _ => Blind.pure () (f := fun s => s.setSP (s.sp - 1))
      (BlindUpdate.dep (g := fun s => s.sp - 1) (h := fun a s => s.setSP a) (fun _ _ _ => rfl) blind_setSP))

theorem blind_pop : Blind pop :=
  Blind.after (h := fun s => busRead (stackAddr s.sp) s) (f := fun s => s.setSP (s.sp + 1))
    (Blind.dep (g := fun s => stackAddr s.sp) (h := fun a s => busRead a s) (fun _ _ _ => rfl) blind_read)
    (BlindUpdate.dep (g := fun s => s.sp + 1) (h := fun a s => s.setSP a) (fun _ _ _ => rfl) blind_setSP)

theorem blind_pushAddr (a : Addr) : Blind (pushAddr a) := Blind.bind (blind_push _) (fun _ => blind_push _)

theorem blind_popAddr : Blind popAddr :=
  Blind.bind blind_pop (fun _ => Blind.bind blind_pop (fun _ => Blind.pure _ blind_id))

theorem blind_readWord (a : Addr) : Blind (readWord a) :=
  Blind.bind (blind_read _) (fun _ => Blind.bind (blind_read _) (fun _ => Blind.pure _ blind_id))

theorem blind_readPtr (a : Addr) : Blind (readPtr a) :=
  Blind.bind (blind_read _) (fun _ => Blind.bind (blind_read _) (fun _ => Blind.pure _ blind_id))

theorem blind_resolve (m : MemOperand) : Blind (resolve m) := by
  cases m
  case zp d => exact Blind.pure _ blind_id
  case abs d => exact Blind.pure _ blind_id
  case ind a => exact Blind.bind (blind_readPtr _) (fun _ => Blind.pure _ blind_id)
  case izx a =>
    exact Blind.dep (g := fun s => zext16 (a + s.x)) (h := fun p s => (readPtr p s).bind fun ea s => .ok (ea, false) s)
      (fun _ _ _ => rfl) (fun _ => Blind.bind (blind_readPtr _) (fun _ => Blind.pure _ blind_id))
  case izy a =>
    exact Blind.bind (blind_readPtr _) (fun b => Blind.dep (g := fun s => zext16 s.y)
      (h := fun y s => .ok (b + y, pageCross b (b + y)) s) (fun _ _ _ => rfl) (fun _ => Blind.pure _ blind_id))
  case zpx d =>
    exact Blind.dep (g := fun s => zext16 (d + s.x)) (h := fun y s => .ok (y, false) s) (fun _ _ _ => rfl)
      (fun _ => Blind.pure _ blind_id)
  case zpy d =>
    exact Blind.dep (g := fun s => zext16 (d + s.y)) (h := fun y s => .ok (y, false) s) (fun _ _ _ => rfl)
      (fun _ => Blind.pure _ blind_id)
  case abx d =>
    exact Blind.dep (g := fun s => d + zext16 s.x) (h := fun y s => .ok (y, pageCross d y) s) (fun _ _ _ => rfl)
      (fun _ => Blind.pure _ blind_id)
  case aby d =>
    exact Blind.dep (g := fun s => d + zext16 s.y) (h := fun y s => .ok (y, pageCross d y) s) (fun _ _ _ => rfl)
      (fun _ => Blind.pure _ blind_id)

theorem blind_interruptEntry (v : Addr) (b : Bool) : Blind (interruptEntry v b) := by
  refine Blind.bind (Blind.dep (g := fun s => s.pc) (h := fun a s => pushAddr a s) (fun _ _ _ => rfl) blind_pushAddr)
    (fun _ => Blind.bind (fun w n s s' e => ?_) (fun _ => Blind.bind
      (Blind.after (blind_readWord v) (f := fun s => s.setP (putFlag .i true s.p)) (blind_flags (blindFlags_put _ _)))
      (fun a => Blind.pure () (blind_setPC a))))
  cases b
  · show AlikeRes w n (push (pushedByInterrupt s.p) s) (push (pushedByInterrupt s'.p) s')
    rw [pushedByInterrupt_alike e.2]
    exact blind_push _ w n s s' e
  · show AlikeRes w n (push (pushedByInstruction s.p) s) (push (pushedByInstruction s'.p) s')
    rw [pushedByInstruction_alike e.2]
    exact blind_push _ w n s s' e

theorem blind_interruptReturn : Blind interruptReturn :=
  Blind.bind blind_pop (fun v => Blind.bind (Blind.after blind_popAddr (f := fun s => s.setP (statusOfPopped v))
    (blind_setP _)) (fun a => Blind.pure () (blind_setPC a)))

/-! ## The shapes of instructions -/

theorem blind_plain {base len : Nat} {h : State → Res Unit} (hh : Blind h) : BlindMeaning (plain base len h) :=
  Blind.toResult (h := fun s => h (s.advance base len)) (Blind.after hh (blind_advance _ _))

theorem blind_addressed {base : Nat} {xb : Bool} {m : MemOperand} {h : Addr → State → Res Unit} (hh : ∀ a, Blind (h a)) :
    BlindMeaning (addressed base xb m h) :=
  Blind.toResult (Blind.bind (blind_resolve m) (fun r =>
    Blind.bind (k := fun _ s => .ok () (s.addCycles (r.2 && xb).toNat))
      (Blind.after (hh r.1) (f := fun s => s.advance base m.length) (blind_advance _ _))
      (fun _ => Blind.pure () (blind_addCycles _))))

theorem blind_modify {f : Byte → Byte → Byte × Byte} (hf : ∀ v, BlindPair (f v)) (a : Addr) (v : Byte) :
    Blind (fun s => busWrite a (f v s.p).1 (s.setP (f v s.p).2)) := by
  intro w n s s' e
  obtain ⟨h1, h2⟩ := hf v _ _ _ e.2
  dsimp only
  rw [h1]
  exact blind_write a _ w n _ _ ⟨by rw [e.1]; rfl, h2⟩

end Sys2Proof.Machine
end

