-- ==== Sys2Proof/Tests/Slice0.lean ====
section
/-! SUPPORT. Tests. Expected results are the spec's: the opcode matrix of 30_encoding.md R114, the worked vectors of
95_test_vectors.md (named in the comment of each test) and the examples of the rules. At the end, for each statement with
hypotheses, witnesses that meet them. -/

namespace Sys2Proof.Tests

open Sys2Proof Sys2Proof.Machine

/-! ## The well-formedness check refuses what has no encoding, and takes the ends of each range -/

theorem test_ill_formed_bpl : [Instr.bpl (-129), .bpl 128].map Instr.wellFormed = [false, false] := by decide
theorem test_ill_formed_bmi : [Instr.bmi (-129), .bmi 128].map Instr.wellFormed = [false, false] := by decide
theorem test_ill_formed_bvc : [Instr.bvc (-129), .bvc 128].map Instr.wellFormed = [false, false] := by decide
theorem test_ill_formed_bvs : [Instr.bvs (-129), .bvs 128].map Instr.wellFormed = [false, false] := by decide
theorem test_ill_formed_bcc : [Instr.bcc (-129), .bcc 128].map Instr.wellFormed = [false, false] := by decide
theorem test_ill_formed_bcs : [Instr.bcs (-129), .bcs 128].map Instr.wellFormed = [false, false] := by decide
theorem test_ill_formed_bne : [Instr.bne (-129), .bne 128].map Instr.wellFormed = [false, false] := by decide
theorem test_ill_formed_beq : [Instr.beq (-129), .beq 128].map Instr.wellFormed = [false, false] := by decide

theorem test_well_formed_offsets : [Instr.bpl (-128), Instr.bmi (-128), Instr.bvc (-128), Instr.bvs (-128), Instr.bcc (-128), Instr.bcs (-128), Instr.bne (-128), Instr.beq (-128),
    .bpl 127, .bmi 127, .bvc 127, .bvs 127, .bcc 127, .bcs 127, .bne 127, .beq 127].all Instr.wellFormed = true := by decide

theorem test_ill_formed_kil : [Instr.kil 0x00, Instr.kil 0xEA, Instr.kil 0x03, Instr.kil 0xFF].any Instr.wellFormed = false := by decide
theorem test_well_formed_kil : [0x02, 0x12, 0x22, 0x32, 0x42, 0x52, 0x62, 0x72, 0x92, 0xB2, 0xD2, 0xF2].all (fun op => (Instr.kil op).wellFormed) = true := by decide
theorem test_ill_formed_nopAbsX : [Instr.nopAbsX 0x00 0, Instr.nopAbsX 0xEA 0, Instr.nopAbsX 0x1D 0, Instr.nopAbsX 0xFF 0].any Instr.wellFormed = false := by decide
theorem test_well_formed_nopAbsX : [0x1C, 0x3C, 0x5C, 0x7C, 0xDC, 0xFC].all (fun op => (Instr.nopAbsX op 0).wellFormed) = true := by decide
theorem test_ill_formed_nopImm : [Instr.nopImm 0x00 0, Instr.nopImm 0xEA 0, Instr.nopImm 0x81 0, Instr.nopImm 0xFF 0].any Instr.wellFormed = false := by decide
theorem test_well_formed_nopImm : [0x80, 0x82, 0x89, 0xC2, 0xE2].all (fun op => (Instr.nopImm op 0).wellFormed) = true := by decide
theorem test_ill_formed_nopImp : [Instr.nopImp 0x00, Instr.nopImp 0xEA, Instr.nopImp 0x1B, Instr.nopImp 0xFF].any Instr.wellFormed = false := by decide
theorem test_well_formed_nopImp : [0x1A, 0x3A, 0x5A, 0x7A, 0xDA, 0xFA].all (fun op => (Instr.nopImp op).wellFormed) = true := by decide
theorem test_ill_formed_nopZp : [Instr.nopZp 0x00 0, Instr.nopZp 0xEA 0, Instr.nopZp 0x05 0, Instr.nopZp 0xFF 0].any Instr.wellFormed = false := by decide
theorem test_well_formed_nopZp : [0x04, 0x44, 0x64].all (fun op => (Instr.nopZp op 0).wellFormed) = true := by decide
theorem test_ill_formed_nopZpX : [Instr.nopZpX 0x00 0, Instr.nopZpX 0xEA 0, Instr.nopZpX 0x15 0, Instr.nopZpX 0xFF 0].any Instr.wellFormed = false := by decide
theorem test_well_formed_nopZpX : [0x14, 0x34, 0x54, 0x74, 0xD4, 0xF4].all (fun op => (Instr.nopZpX op 0).wellFormed) = true := by decide

/-- The instruction that a whole byte string is. -/
def decodeWhole (bytes : List Byte) : Option Instr :=
  match decode bytes with
  | .ok (i, []) => some i
  | _ => none

/-- The columns of R114 for an instruction. -/
def shownEntry (i : Instr) : Mnemonic × Mode × Nat := (i.entry.mnemonic, i.entry.mode, i.entry.base)

/-! ## Every row of the opcode matrix (R114): the word with operand bytes $34 $12 decodes to the row's instruction -/

/-- Row 0x of R114: words. -/
theorem test_decode_row_0 : [
    [0x00, 0x34], [0x01, 0x34], [0x02], [0x03, 0x34], [0x04, 0x34], [0x05, 0x34], [0x06, 0x34], [0x07, 0x34], [0x08],
    [0x09, 0x34], [0x0A], [0x0B, 0x34], [0x0C, 0x34, 0x12], [0x0D, 0x34, 0x12], [0x0E, 0x34, 0x12], [0x0F, 0x34, 0x12]].map decodeWhole = [
    .brk 0x34, .oraIndX 0x34, .kil 0x02, .sloIndX 0x34, .nopZp 0x04 0x34, .oraZp 0x34, .aslZp 0x34, .sloZp 0x34,
    .php, .oraImm 0x34, .aslAcc, .ancImm0B 0x34, .nopAbs 0x1234, .oraAbs 0x1234, .aslAbs 0x1234, .sloAbs 0x1234].map some := by rfl

/-- Row 0x of R114: mnemonic, mode, base cycles. -/
theorem test_entry_row_0 : [
    .brk 0x34, .oraIndX 0x34, .kil 0x02, .sloIndX 0x34, .nopZp 0x04 0x34, .oraZp 0x34, .aslZp 0x34, .sloZp 0x34,
    .php, .oraImm 0x34, .aslAcc, .ancImm0B 0x34, .nopAbs 0x1234, .oraAbs 0x1234, .aslAbs 0x1234, .sloAbs 0x1234].map shownEntry = [
    (.brk, .imp, 7), (.ora, .izx, 6), (.kil, .imp, 0), (.slo, .izx, 8), (.nop, .zp, 3), (.ora, .zp, 3),
    (.asl, .zp, 5), (.slo, .zp, 5), (.php, .imp, 3), (.ora, .imm, 2), (.asl, .acc, 2), (.anc, .imm, 2),
    (.nop, .abs, 4), (.ora, .abs, 4), (.asl, .abs, 6), (.slo, .abs, 6)] := by rfl

/-- Row 1x of R114: words. -/
theorem test_decode_row_1 : [
    [0x10, 0x34], [0x11, 0x34], [0x12], [0x13, 0x34], [0x14, 0x34], [0x15, 0x34], [0x16, 0x34], [0x17, 0x34], [0x18],
    [0x19, 0x34, 0x12], [0x1A], [0x1B, 0x34, 0x12], [0x1C, 0x34, 0x12], [0x1D, 0x34, 0x12], [0x1E, 0x34, 0x12],
    [0x1F, 0x34, 0x12]].map decodeWhole = [
    .bpl 52, .oraIndY 0x34, .kil 0x12, .sloIndY 0x34, .nopZpX 0x14 0x34, .oraZpX 0x34, .aslZpX 0x34, .sloZpX 0x34,
    .clc, .oraAbsY 0x1234, .nopImp 0x1A, .sloAbsY 0x1234, .nopAbsX 0x1C 0x1234, .oraAbsX 0x1234, .aslAbsX 0x1234,
    .sloAbsX 0x1234].map some := by rfl

/-- Row 1x of R114: mnemonic, mode, base cycles. -/
theorem test_entry_row_1 : [
    .bpl 52, .oraIndY 0x34, .kil 0x12, .sloIndY 0x34, .nopZpX 0x14 0x34, .oraZpX 0x34, .aslZpX 0x34, .sloZpX 0x34,
    .clc, .oraAbsY 0x1234, .nopImp 0x1A, .sloAbsY 0x1234, .nopAbsX 0x1C 0x1234, .oraAbsX 0x1234, .aslAbsX 0x1234,
    .sloAbsX 0x1234].map shownEntry = [
    (.bpl, .rel, 2), (.ora, .izy, 5), (.kil, .imp, 0), (.slo, .izy, 8), (.nop, .zpx, 4), (.ora, .zpx, 4),
    (.asl, .zpx, 6), (.slo, .zpx, 6), (.clc, .imp, 2), (.ora, .aby, 4), (.nop, .imp, 2), (.slo, .aby, 7),
    (.nop, .abx, 4), (.ora, .abx, 4), (.asl, .abx, 7), (.slo, .abx, 7)] := by rfl

/-- Row 2x of R114: words. -/
theorem test_decode_row_2 : [
    [0x20, 0x34, 0x12], [0x21, 0x34], [0x22], [0x23, 0x34], [0x24, 0x34], [0x25, 0x34], [0x26, 0x34], [0x27, 0x34],
    [0x28], [0x29, 0x34], [0x2A], [0x2B, 0x34], [0x2C, 0x34, 0x12], [0x2D, 0x34, 0x12], [0x2E, 0x34, 0x12],
    [0x2F, 0x34, 0x12]].map decodeWhole = [
    .jsrAbs 0x1234, .andIndX 0x34, .kil 0x22, .rlaIndX 0x34, .bitZp 0x34, .andZp 0x34, .rolZp 0x34, .rlaZp 0x34,
    .plp, .andImm 0x34, .rolAcc, .ancImm2B 0x34, .bitAbs 0x1234, .andAbs 0x1234, .rolAbs 0x1234, .rlaAbs 0x1234].map some := by rfl

/-- Row 2x of R114: mnemonic, mode, base cycles. -/
theorem test_entry_row_2 : [
    .jsrAbs 0x1234, .andIndX 0x34, .kil 0x22, .rlaIndX 0x34, .bitZp 0x34, .andZp 0x34, .rolZp 0x34, .rlaZp 0x34,
    .plp, .andImm 0x34, .rolAcc, .ancImm2B 0x34, .bitAbs 0x1234, .andAbs 0x1234, .rolAbs 0x1234, .rlaAbs 0x1234].map shownEntry = [
    (.jsr, .abs, 6), (.and, .izx, 6), (.kil, .imp, 0), (.rla, .izx, 8), (.bit, .zp, 3), (.and, .zp, 3),
    (.rol, .zp, 5), (.rla, .zp, 5), (.plp, .imp, 4), (.and, .imm, 2), (.rol, .acc, 2), (.anc, .imm, 2),
    (.bit, .abs, 4), (.and, .abs, 4), (.rol, .abs, 6), (.rla, .abs, 6)] := by rfl

/-- Row 3x of R114: words. -/
theorem test_decode_row_3 : [
    [0x30, 0x34], [0x31, 0x34], [0x32], [0x33, 0x34], [0x34, 0x34], [0x35, 0x34], [0x36, 0x34], [0x37, 0x34], [0x38],
    [0x39, 0x34, 0x12], [0x3A], [0x3B, 0x34, 0x12], [0x3C, 0x34, 0x12], [0x3D, 0x34, 0x12], [0x3E, 0x34, 0x12],
    [0x3F, 0x34, 0x12]].map decodeWhole = [
    .bmi 52, .andIndY 0x34, .kil 0x32, .rlaIndY 0x34, .nopZpX 0x34 0x34, .andZpX 0x34, .rolZpX 0x34, .rlaZpX 0x34,
    .sec, .andAbsY 0x1234, .nopImp 0x3A, .rlaAbsY 0x1234, .nopAbsX 0x3C 0x1234, .andAbsX 0x1234, .rolAbsX 0x1234,
    .rlaAbsX 0x1234].map some := by rfl

/-- Row 3x of R114: mnemonic, mode, base cycles. -/
theorem test_entry_row_3 : [
    .bmi 52, .andIndY 0x34, .kil 0x32, .rlaIndY 0x34, .nopZpX 0x34 0x34, .andZpX 0x34, .rolZpX 0x34, .rlaZpX 0x34,
    .sec, .andAbsY 0x1234, .nopImp 0x3A, .rlaAbsY 0x1234, .nopAbsX 0x3C 0x1234, .andAbsX 0x1234, .rolAbsX 0x1234,
    .rlaAbsX 0x1234].map shownEntry = [
    (.bmi, .rel, 2), (.and, .izy, 5), (.kil, .imp, 0), (.rla, .izy, 8), (.nop, .zpx, 4), (.and, .zpx, 4),
    (.rol, .zpx, 6), (.rla, .zpx, 6), (.sec, .imp, 2), (.and, .aby, 4), (.nop, .imp, 2), (.rla, .aby, 7),
    (.nop, .abx, 4), (.and, .abx, 4), (.rol, .abx, 7), (.rla, .abx, 7)] := by rfl

/-- Row 4x of R114: words. -/
theorem test_decode_row_4 : [
    [0x40], [0x41, 0x34], [0x42], [0x43, 0x34], [0x44, 0x34], [0x45, 0x34], [0x46, 0x34], [0x47, 0x34], [0x48],
    [0x49, 0x34], [0x4A], [0x4B, 0x34], [0x4C, 0x34, 0x12], [0x4D, 0x34, 0x12], [0x4E, 0x34, 0x12], [0x4F, 0x34, 0x12]].map decodeWhole = [
    .rti, .eorIndX 0x34, .kil 0x42, .sreIndX 0x34, .nopZp 0x44 0x34, .eorZp 0x34, .lsrZp 0x34, .sreZp 0x34, .pha,
    .eorImm 0x34, .lsrAcc, .alrImm 0x34, .jmpAbs 0x1234, .eorAbs 0x1234, .lsrAbs 0x1234, .sreAbs 0x1234].map some := by rfl

/-- Row 4x of R114: mnemonic, mode, base cycles. -/
theorem test_entry_row_4 : [
    .rti, .eorIndX 0x34, .kil 0x42, .sreIndX 0x34, .nopZp 0x44 0x34, .eorZp 0x34, .lsrZp 0x34, .sreZp 0x34, .pha,
    .eorImm 0x34, .lsrAcc, .alrImm 0x34, .jmpAbs 0x1234, .eorAbs 0x1234, .lsrAbs 0x1234, .sreAbs 0x1234].map shownEntry = [
    (.rti, .imp, 6), (.eor, .izx, 6), (.kil, .imp, 0), (.sre, .izx, 8), (.nop, .zp, 3), (.eor, .zp, 3),
    (.lsr, .zp, 5), (.sre, .zp, 5), (.pha, .imp, 3), (.eor, .imm, 2), (.lsr, .acc, 2), (.alr, .imm, 2),
    (.jmp, .abs, 3), (.eor, .abs, 4), (.lsr, .abs, 6), (.sre, .abs, 6)] := by rfl

/-- Row 5x of R114: words. -/
theorem test_decode_row_5 : [
    [0x50, 0x34], [0x51, 0x34], [0x52], [0x53, 0x34], [0x54, 0x34], [0x55, 0x34], [0x56, 0x34], [0x57, 0x34], [0x58],
    [0x59, 0x34, 0x12], [0x5A], [0x5B, 0x34, 0x12], [0x5C, 0x34, 0x12], [0x5D, 0x34, 0x12], [0x5E, 0x34, 0x12],
    [0x5F, 0x34, 0x12]].map decodeWhole = [
    .bvc 52, .eorIndY 0x34, .kil 0x52, .sreIndY 0x34, .nopZpX 0x54 0x34, .eorZpX 0x34, .lsrZpX 0x34, .sreZpX 0x34,
    .cli, .eorAbsY 0x1234, .nopImp 0x5A, .sreAbsY 0x1234, .nopAbsX 0x5C 0x1234, .eorAbsX 0x1234, .lsrAbsX 0x1234,
    .sreAbsX 0x1234].map some := by rfl

/-- Row 5x of R114: mnemonic, mode, base cycles. -/
theorem test_entry_row_5 : [
    .bvc 52, .eorIndY 0x34, .kil 0x52, .sreIndY 0x34, .nopZpX 0x54 0x34, .eorZpX 0x34, .lsrZpX 0x34, .sreZpX 0x34,
    .cli, .eorAbsY 0x1234, .nopImp 0x5A, .sreAbsY 0x1234, .nopAbsX 0x5C 0x1234, .eorAbsX 0x1234, .lsrAbsX 0x1234,
    .sreAbsX 0x1234].map shownEntry = [
    (.bvc, .rel, 2), (.eor, .izy, 5), (.kil, .imp, 0), (.sre, .izy, 8), (.nop, .zpx, 4), (.eor, .zpx, 4),
    (.lsr, .zpx, 6), (.sre, .zpx, 6), (.cli, .imp, 2), (.eor, .aby, 4), (.nop, .imp, 2), (.sre, .aby, 7),
    (.nop, .abx, 4), (.eor, .abx, 4), (.lsr, .abx, 7), (.sre, .abx, 7)] := by rfl

/-- Row 6x of R114: words. -/
theorem test_decode_row_6 : [
    [0x60], [0x61, 0x34], [0x62], [0x63, 0x34], [0x64, 0x34], [0x65, 0x34], [0x66, 0x34], [0x67, 0x34], [0x68],
    [0x69, 0x34], [0x6A], [0x6B, 0x34], [0x6C, 0x34, 0x12], [0x6D, 0x34, 0x12], [0x6E, 0x34, 0x12], [0x6F, 0x34, 0x12]].map decodeWhole = [
    .rts, .adcIndX 0x34, .kil 0x62, .rraIndX 0x34, .nopZp 0x64 0x34, .adcZp 0x34, .rorZp 0x34, .rraZp 0x34, .pla,
    .adcImm 0x34, .rorAcc, .arrImm 0x34, .jmpInd 0x1234, .adcAbs 0x1234, .rorAbs 0x1234, .rraAbs 0x1234].map some := by rfl

/-- Row 6x of R114: mnemonic, mode, base cycles. -/
theorem test_entry_row_6 : [
    .rts, .adcIndX 0x34, .kil 0x62, .rraIndX 0x34, .nopZp 0x64 0x34, .adcZp 0x34, .rorZp 0x34, .rraZp 0x34, .pla,
    .adcImm 0x34, .rorAcc, .arrImm 0x34, .jmpInd 0x1234, .adcAbs 0x1234, .rorAbs 0x1234, .rraAbs 0x1234].map shownEntry = [
    (.rts, .imp, 6), (.adc, .izx, 6), (.kil, .imp, 0), (.rra, .izx, 8), (.nop, .zp, 3), (.adc, .zp, 3),
    (.ror, .zp, 5), (.rra, .zp, 5), (.pla, .imp, 4), (.adc, .imm, 2), (.ror, .acc, 2), (.arr, .imm, 2),
    (.jmp, .ind, 5), (.adc, .abs, 4), (.ror, .abs, 6), (.rra, .abs, 6)] := by rfl

/-- Row 7x of R114: words. -/
theorem test_decode_row_7 : [
    [0x70, 0x34], [0x71, 0x34], [0x72], [0x73, 0x34], [0x74, 0x34], [0x75, 0x34], [0x76, 0x34], [0x77, 0x34], [0x78],
    [0x79, 0x34, 0x12], [0x7A], [0x7B, 0x34, 0x12], [0x7C, 0x34, 0x12], [0x7D, 0x34, 0x12], [0x7E, 0x34, 0x12],
    [0x7F, 0x34, 0x12]].map decodeWhole = [
    .bvs 52, .adcIndY 0x34, .kil 0x72, .rraIndY 0x34, .nopZpX 0x74 0x34, .adcZpX 0x34, .rorZpX 0x34, .rraZpX 0x34,
    .sei, .adcAbsY 0x1234, .nopImp 0x7A, .rraAbsY 0x1234, .nopAbsX 0x7C 0x1234, .adcAbsX 0x1234, .rorAbsX 0x1234,
    .rraAbsX 0x1234].map some := by rfl

/-- Row 7x of R114: mnemonic, mode, base cycles. -/
theorem test_entry_row_7 : [
    .bvs 52, .adcIndY 0x34, .kil 0x72, .rraIndY 0x34, .nopZpX 0x74 0x34, .adcZpX 0x34, .rorZpX 0x34, .rraZpX 0x34,
    .sei, .adcAbsY 0x1234, .nopImp 0x7A, .rraAbsY 0x1234, .nopAbsX 0x7C 0x1234, .adcAbsX 0x1234, .rorAbsX 0x1234,
    .rraAbsX 0x1234].map shownEntry = [
    (.bvs, .rel, 2), (.adc, .izy, 5), (.kil, .imp, 0), (.rra, .izy, 8), (.nop, .zpx, 4), (.adc, .zpx, 4),
    (.ror, .zpx, 6), (.rra, .zpx, 6), (.sei, .imp, 2), (.adc, .aby, 4), (.nop, .imp, 2), (.rra, .aby, 7),
    (.nop, .abx, 4), (.adc, .abx, 4), (.ror, .abx, 7), (.rra, .abx, 7)] := by rfl

/-- Row 8x of R114: words. -/
theorem test_decode_row_8 : [
    [0x80, 0x34], [0x81, 0x34], [0x82, 0x34], [0x83, 0x34], [0x84, 0x34], [0x85, 0x34], [0x86, 0x34], [0x87, 0x34],
    [0x88], [0x89, 0x34], [0x8A], [0x8B, 0x34], [0x8C, 0x34, 0x12], [0x8D, 0x34, 0x12], [0x8E, 0x34, 0x12],
    [0x8F, 0x34, 0x12]].map decodeWhole = [
    .nopImm 0x80 0x34, .staIndX 0x34, .nopImm 0x82 0x34, .saxIndX 0x34, .styZp 0x34, .staZp 0x34, .stxZp 0x34,
    .saxZp 0x34, .dey, .nopImm 0x89 0x34, .txa, .xaaImm 0x34, .styAbs 0x1234, .staAbs 0x1234, .stxAbs 0x1234,
    .saxAbs 0x1234].map some := by rfl

/-- Row 8x of R114: mnemonic, mode, base cycles. -/
theorem test_entry_row_8 : [
    .nopImm 0x80 0x34, .staIndX 0x34, .nopImm 0x82 0x34, .saxIndX 0x34, .styZp 0x34, .staZp 0x34, .stxZp 0x34,
    .saxZp 0x34, .dey, .nopImm 0x89 0x34, .txa, .xaaImm 0x34, .styAbs 0x1234, .staAbs 0x1234, .stxAbs 0x1234,
    .saxAbs 0x1234].map shownEntry = [
    (.nop, .imm, 2), (.sta, .izx, 6), (.nop, .imm, 2), (.sax, .izx, 6), (.sty, .zp, 3), (.sta, .zp, 3),
    (.stx, .zp, 3), (.sax, .zp, 3), (.dey, .imp, 2), (.nop, .imm, 2), (.txa, .imp, 2), (.xaa, .imm, 2),
    (.sty, .abs, 4), (.sta, .abs, 4), (.stx, .abs, 4), (.sax, .abs, 4)] := by rfl

/-- Row 9x of R114: words. -/
theorem test_decode_row_9 : [
    [0x90, 0x34], [0x91, 0x34], [0x92], [0x93, 0x34], [0x94, 0x34], [0x95, 0x34], [0x96, 0x34], [0x97, 0x34], [0x98],
    [0x99, 0x34, 0x12], [0x9A], [0x9B, 0x34, 0x12], [0x9C, 0x34, 0x12], [0x9D, 0x34, 0x12], [0x9E, 0x34, 0x12],
    [0x9F, 0x34, 0x12]].map decodeWhole = [
    .bcc 52, .staIndY 0x34, .kil 0x92, .ahxIndY 0x34, .styZpX 0x34, .staZpX 0x34, .stxZpY 0x34, .saxZpY 0x34, .tya,
    .staAbsY 0x1234, .txs, .tasAbsY 0x1234, .shyAbsX 0x1234, .staAbsX 0x1234, .shxAbsY 0x1234, .ahxAbsY 0x1234].map some := by rfl

/-- Row 9x of R114: mnemonic, mode, base cycles. -/
theorem test_entry_row_9 : [
    .bcc 52, .staIndY 0x34, .kil 0x92, .ahxIndY 0x34, .styZpX 0x34, .staZpX 0x34, .stxZpY 0x34, .saxZpY 0x34, .tya,
    .staAbsY 0x1234, .txs, .tasAbsY 0x1234, .shyAbsX 0x1234, .staAbsX 0x1234, .shxAbsY 0x1234, .ahxAbsY 0x1234].map shownEntry = [
    (.bcc, .rel, 2), (.sta, .izy, 6), (.kil, .imp, 0), (.ahx, .izy, 6), (.sty, .zpx, 4), (.sta, .zpx, 4),
    (.stx, .zpy, 4), (.sax, .zpy, 4), (.tya, .imp, 2), (.sta, .aby, 5), (.txs, .imp, 2), (.tas, .aby, 5),
    (.shy, .abx, 5), (.sta, .abx, 5), (.shx, .aby, 5), (.ahx, .aby, 5)] := by rfl

/-- Row Ax of R114: words. -/
theorem test_decode_row_A : [
    [0xA0, 0x34], [0xA1, 0x34], [0xA2, 0x34], [0xA3, 0x34], [0xA4, 0x34], [0xA5, 0x34], [0xA6, 0x34], [0xA7, 0x34],
    [0xA8], [0xA9, 0x34], [0xAA], [0xAB, 0x34], [0xAC, 0x34, 0x12], [0xAD, 0x34, 0x12], [0xAE, 0x34, 0x12],
    [0xAF, 0x34, 0x12]].map decodeWhole = [
    .ldyImm 0x34, .ldaIndX 0x34, .ldxImm 0x34, .laxIndX 0x34, .ldyZp 0x34, .ldaZp 0x34, .ldxZp 0x34, .laxZp 0x34,
    .tay, .ldaImm 0x34, .tax, .laxImm 0x34, .ldyAbs 0x1234, .ldaAbs 0x1234, .ldxAbs 0x1234, .laxAbs 0x1234].map some := by rfl

/-- Row Ax of R114: mnemonic, mode, base cycles. -/
theorem test_entry_row_A : [
    .ldyImm 0x34, .ldaIndX 0x34, .ldxImm 0x34, .laxIndX 0x34, .ldyZp 0x34, .ldaZp 0x34, .ldxZp 0x34, .laxZp 0x34,
    .tay, .ldaImm 0x34, .tax, .laxImm 0x34, .ldyAbs 0x1234, .ldaAbs 0x1234, .ldxAbs 0x1234, .laxAbs 0x1234].map shownEntry = [
    (.ldy, .imm, 2), (.lda, .izx, 6), (.ldx, .imm, 2), (.lax, .izx, 6), (.ldy, .zp, 3), (.lda, .zp, 3),
    (.ldx, .zp, 3), (.lax, .zp, 3), (.tay, .imp, 2), (.lda, .imm, 2), (.tax, .imp, 2), (.lax, .imm, 2),
    (.ldy, .abs, 4), (.lda, .abs, 4), (.ldx, .abs, 4), (.lax, .abs, 4)] := by rfl

/-- Row Bx of R114: words. -/
theorem test_decode_row_B : [
    [0xB0, 0x34], [0xB1, 0x34], [0xB2], [0xB3, 0x34], [0xB4, 0x34], [0xB5, 0x34], [0xB6, 0x34], [0xB7, 0x34], [0xB8],
    [0xB9, 0x34, 0x12], [0xBA], [0xBB, 0x34, 0x12], [0xBC, 0x34, 0x12], [0xBD, 0x34, 0x12], [0xBE, 0x34, 0x12],
    [0xBF, 0x34, 0x12]].map decodeWhole = [
    .bcs 52, .ldaIndY 0x34, .kil 0xB2, .laxIndY 0x34, .ldyZpX 0x34, .ldaZpX 0x34, .ldxZpY 0x34, .laxZpY 0x34, .clv,
    .ldaAbsY 0x1234, .tsx, .lasAbsY 0x1234, .ldyAbsX 0x1234, .ldaAbsX 0x1234, .ldxAbsY 0x1234, .laxAbsY 0x1234].map some := by rfl

/-- Row Bx of R114: mnemonic, mode, base cycles. -/
theorem test_entry_row_B : [
    .bcs 52, .ldaIndY 0x34, .kil 0xB2, .laxIndY 0x34, .ldyZpX 0x34, .ldaZpX 0x34, .ldxZpY 0x34, .laxZpY 0x34, .clv,
    .ldaAbsY 0x1234, .tsx, .lasAbsY 0x1234, .ldyAbsX 0x1234, .ldaAbsX 0x1234, .ldxAbsY 0x1234, .laxAbsY 0x1234].map shownEntry = [
    (.bcs, .rel, 2), (.lda, .izy, 5), (.kil, .imp, 0), (.lax, .izy, 5), (.ldy, .zpx, 4), (.lda, .zpx, 4),
    (.ldx, .zpy, 4), (.lax, .zpy, 4), (.clv, .imp, 2), (.lda, .aby, 4), (.tsx, .imp, 2), (.las, .aby, 4),
    (.ldy, .abx, 4), (.lda, .abx, 4), (.ldx, .aby, 4), (.lax, .aby, 4)] := by rfl

/-- Row Cx of R114: words. -/
theorem test_decode_row_C : [
    [0xC0, 0x34], [0xC1, 0x34], [0xC2, 0x34], [0xC3, 0x34], [0xC4, 0x34], [0xC5, 0x34], [0xC6, 0x34], [0xC7, 0x34],
    [0xC8], [0xC9, 0x34], [0xCA], [0xCB, 0x34], [0xCC, 0x34, 0x12], [0xCD, 0x34, 0x12], [0xCE, 0x34, 0x12],
    [0xCF, 0x34, 0x12]].map decodeWhole = [
    .cpyImm 0x34, .cmpIndX 0x34, .nopImm 0xC2 0x34, .dcpIndX 0x34, .cpyZp 0x34, .cmpZp 0x34, .decZp 0x34,
    .dcpZp 0x34, .iny, .cmpImm 0x34, .dex, .axsImm 0x34, .cpyAbs 0x1234, .cmpAbs 0x1234, .decAbs 0x1234,
    .dcpAbs 0x1234].map some := by rfl

/-- Row Cx of R114: mnemonic, mode, base cycles. -/
theorem test_entry_row_C : [
    .cpyImm 0x34, .cmpIndX 0x34, .nopImm 0xC2 0x34, .dcpIndX 0x34, .cpyZp 0x34, .cmpZp 0x34, .decZp 0x34,
    .dcpZp 0x34, .iny, .cmpImm 0x34, .dex, .axsImm 0x34, .cpyAbs 0x1234, .cmpAbs 0x1234, .decAbs 0x1234,
    .dcpAbs 0x1234].map shownEntry = [
    (.cpy, .imm, 2), (.cmp, .izx, 6), (.nop, .imm, 2), (.dcp, .izx, 8), (.cpy, .zp, 3), (.cmp, .zp, 3),
    (.dec, .zp, 5), (.dcp, .zp, 5), (.iny, .imp, 2), (.cmp, .imm, 2), (.dex, .imp, 2), (.axs, .imm, 2),
    (.cpy, .abs, 4), (.cmp, .abs, 4), (.dec, .abs, 6), (.dcp, .abs, 6)] := by rfl

/-- Row Dx of R114: words. -/
theorem test_decode_row_D : [
    [0xD0, 0x34], [0xD1, 0x34], [0xD2], [0xD3, 0x34], [0xD4, 0x34], [0xD5, 0x34], [0xD6, 0x34], [0xD7, 0x34], [0xD8],
    [0xD9, 0x34, 0x12], [0xDA], [0xDB, 0x34, 0x12], [0xDC, 0x34, 0x12], [0xDD, 0x34, 0x12], [0xDE, 0x34, 0x12],
    [0xDF, 0x34, 0x12]].map decodeWhole = [
    .bne 52, .cmpIndY 0x34, .kil 0xD2, .dcpIndY 0x34, .nopZpX 0xD4 0x34, .cmpZpX 0x34, .decZpX 0x34, .dcpZpX 0x34,
    .cld, .cmpAbsY 0x1234, .nopImp 0xDA, .dcpAbsY 0x1234, .nopAbsX 0xDC 0x1234, .cmpAbsX 0x1234, .decAbsX 0x1234,
    .dcpAbsX 0x1234].map some := by rfl

/-- Row Dx of R114: mnemonic, mode, base cycles. -/
theorem test_entry_row_D : [
    .bne 52, .cmpIndY 0x34, .kil 0xD2, .dcpIndY 0x34, .nopZpX 0xD4 0x34, .cmpZpX 0x34, .decZpX 0x34, .dcpZpX 0x34,
    .cld, .cmpAbsY 0x1234, .nopImp 0xDA, .dcpAbsY 0x1234, .nopAbsX 0xDC 0x1234, .cmpAbsX 0x1234, .decAbsX 0x1234,
    .dcpAbsX 0x1234].map shownEntry = [
    (.bne, .rel, 2), (.cmp, .izy, 5), (.kil, .imp, 0), (.dcp, .izy, 8), (.nop, .zpx, 4), (.cmp, .zpx, 4),
    (.dec, .zpx, 6), (.dcp, .zpx, 6), (.cld, .imp, 2), (.cmp, .aby, 4), (.nop, .imp, 2), (.dcp, .aby, 7),
    (.nop, .abx, 4), (.cmp, .abx, 4), (.dec, .abx, 7), (.dcp, .abx, 7)] := by rfl

/-- Row Ex of R114: words. -/
theorem test_decode_row_E : [
    [0xE0, 0x34], [0xE1, 0x34], [0xE2, 0x34], [0xE3, 0x34], [0xE4, 0x34], [0xE5, 0x34], [0xE6, 0x34], [0xE7, 0x34],
    [0xE8], [0xE9, 0x34], [0xEA], [0xEB, 0x34], [0xEC, 0x34, 0x12], [0xED, 0x34, 0x12], [0xEE, 0x34, 0x12],
    [0xEF, 0x34, 0x12]].map decodeWhole = [
    .cpxImm 0x34, .sbcIndX 0x34, .nopImm 0xE2 0x34, .iscIndX 0x34, .cpxZp 0x34, .sbcZp 0x34, .incZp 0x34,
    .iscZp 0x34, .inx, .sbcImm 0x34, .nop, .sbcImmEB 0x34, .cpxAbs 0x1234, .sbcAbs 0x1234, .incAbs 0x1234,
    .iscAbs 0x1234].map some := by rfl

/-- Row Ex of R114: mnemonic, mode, base cycles. -/
theorem test_entry_row_E : [
    .cpxImm 0x34, .sbcIndX 0x34, .nopImm 0xE2 0x34, .iscIndX 0x34, .cpxZp 0x34, .sbcZp 0x34, .incZp 0x34,
    .iscZp 0x34, .inx, .sbcImm 0x34, .nop, .sbcImmEB 0x34, .cpxAbs 0x1234, .sbcAbs 0x1234, .incAbs 0x1234,
    .iscAbs 0x1234].map shownEntry = [
    (.cpx, .imm, 2), (.sbc, .izx, 6), (.nop, .imm, 2), (.isc, .izx, 8), (.cpx, .zp, 3), (.sbc, .zp, 3),
    (.inc, .zp, 5), (.isc, .zp, 5), (.inx, .imp, 2), (.sbc, .imm, 2), (.nop, .imp, 2), (.sbc, .imm, 2),
    (.cpx, .abs, 4), (.sbc, .abs, 4), (.inc, .abs, 6), (.isc, .abs, 6)] := by rfl

/-- Row Fx of R114: words. -/
theorem test_decode_row_F : [
    [0xF0, 0x34], [0xF1, 0x34], [0xF2], [0xF3, 0x34], [0xF4, 0x34], [0xF5, 0x34], [0xF6, 0x34], [0xF7, 0x34], [0xF8],
    [0xF9, 0x34, 0x12], [0xFA], [0xFB, 0x34, 0x12], [0xFC, 0x34, 0x12], [0xFD, 0x34, 0x12], [0xFE, 0x34, 0x12],
    [0xFF, 0x34, 0x12]].map decodeWhole = [
    .beq 52, .sbcIndY 0x34, .kil 0xF2, .iscIndY 0x34, .nopZpX 0xF4 0x34, .sbcZpX 0x34, .incZpX 0x34, .iscZpX 0x34,
    .sed, .sbcAbsY 0x1234, .nopImp 0xFA, .iscAbsY 0x1234, .nopAbsX 0xFC 0x1234, .sbcAbsX 0x1234, .incAbsX 0x1234,
    .iscAbsX 0x1234].map some := by rfl

/-- Row Fx of R114: mnemonic, mode, base cycles. -/
theorem test_entry_row_F : [
    .beq 52, .sbcIndY 0x34, .kil 0xF2, .iscIndY 0x34, .nopZpX 0xF4 0x34, .sbcZpX 0x34, .incZpX 0x34, .iscZpX 0x34,
    .sed, .sbcAbsY 0x1234, .nopImp 0xFA, .iscAbsY 0x1234, .nopAbsX 0xFC 0x1234, .sbcAbsX 0x1234, .incAbsX 0x1234,
    .iscAbsX 0x1234].map shownEntry = [
    (.beq, .rel, 2), (.sbc, .izy, 5), (.kil, .imp, 0), (.isc, .izy, 8), (.nop, .zpx, 4), (.sbc, .zpx, 4),
    (.inc, .zpx, 6), (.isc, .zpx, 6), (.sed, .imp, 2), (.sbc, .aby, 4), (.nop, .imp, 2), (.isc, .aby, 7),
    (.nop, .abx, 4), (.sbc, .abx, 4), (.inc, .abx, 7), (.isc, .abx, 7)] := by rfl

/-- A string that ends before its instruction does is rejected, and an empty one (R117). -/
theorem test_decode_short : ([[], [0xA9], [0xAD, 0x34], [0x00]].map decodeWhole) = [none, none, none, none] := by rfl

/-- A negative offset is sign-extended (R112). -/
theorem test_decode_negative_offset : [[0xD0, 0xF8], [0x30, 0x80], [0x50, 0xFF]].map decodeWhole =
    [Instr.bne (-8), .bmi (-128), .bvc (-1)].map some := by rfl

/-- A table word: the opcode in bits 7..0, the operand bytes above (opcode_table.json). -/
theorem test_table_word : [decodeTableWord 24 0x1234AD, decodeTableWord 8 0xEA, decodeTableWord 16 0x0069] =
    [some (.ldaAbs 0x1234), some .nop, some (.adcImm 0x00)] := by rfl

/-! ## One step of the spec's vectors -/

/-- A state of the spec's test vectors: the registers, and the bytes of the one 64 KiB memory. -/
def vector (a x y sp p : Byte) (pc : Addr) (cells : Memory) : State :=
  { State.reset with a := a, x := x, y := y, sp := sp, p := p, pc := pc, devices := [some (.memory .tracked 0x10000 cells)] }

/-- What a vector shows of a state: A, X, Y, SP, P, PC, cycles, and the bytes of the first device. -/
def shownState (s : State) : List Nat × Memory :=
  ([s.a.toNat, s.x.toNat, s.y.toNat, s.sp.toNat, s.p.toNat, s.pc.toNat, s.cycles],
    match s.devices with
    | some (.memory _ _ cells) :: _ => cells
    | _ => [])

/-- The state after a step, as far as a vector shows it. -/
def shownAfter (r : Host.Outcome State Fault Refusal) : Option (List Nat × Memory) :=
  match r with
  | .next s => some (shownState s)
  | _ => none

/-- V41.1 (rule R181). -/
theorem test_lda_V41_1 :
    shownAfter (step (vector 0x00 0x00 0x00 0xFD 0x24 0x0400 [(0x0400, 0xA9)])) =
      some ([0x00, 0x00, 0x00, 0xFD, 0x26, 0x0402, 2], [(0x0400, 0xA9)]) := by decide

/-- V41.3 (rule R182). -/
theorem test_ldx_V41_3 :
    shownAfter (step (vector 0x00 0x00 0x00 0xFD 0x24 0x0400 [(0x0400, 0xA2), (0x0401, 0xFF)])) =
      some ([0x00, 0xFF, 0x00, 0xFD, 0xA4, 0x0402, 2], [(0x0400, 0xA2), (0x0401, 0xFF)]) := by decide

/-- V41.4 (rule R183). -/
theorem test_ldy_V41_4 :
    shownAfter (step (vector 0x00 0x00 0x00 0xFD 0xA6 0x0400 [(0x0400, 0xA0), (0x0401, 0x7F)])) =
      some ([0x00, 0x00, 0x7F, 0xFD, 0x24, 0x0402, 2], [(0x0400, 0xA0), (0x0401, 0x7F)]) := by decide

/-- V41.5 (rules R181, R73). -/
theorem test_lda_V41_5 :
    shownAfter (step (vector 0x00 0x00 0x00 0xFD 0x24 0x0400 [(0x0400, 0xAD), (0x0402, 0x90)])) =
      some ([0x00, 0x00, 0x00, 0xFD, 0x26, 0x0403, 4], [(0x0400, 0xAD), (0x0402, 0x90)]) := by decide

/-- V41.6 (rule R184). -/
theorem test_sta_V41_6 :
    shownAfter (step (vector 0x5A 0x00 0x00 0xFD 0x24 0x0400 [(0x0400, 0x85), (0x0401, 0x10)])) =
      some ([0x5A, 0x00, 0x00, 0xFD, 0x24, 0x0402, 3], [(0x0010, 0x5A), (0x0400, 0x85), (0x0401, 0x10)]) := by decide

/-- V41.7 (rule R185). -/
theorem test_stx_V41_7 :
    shownAfter (step (vector 0x00 0xC3 0x00 0xFD 0x24 0x0400 [(0x0400, 0x8E), (0x0401, 0x34), (0x0402, 0x12)])) =
      some ([0x00, 0xC3, 0x00, 0xFD, 0x24, 0x0403, 4], [(0x0400, 0x8E), (0x0401, 0x34), (0x0402, 0x12), (0x1234, 0xC3)]) := by decide

/-- V41.8 (rules R186, R155). -/
theorem test_sty_V41_8 :
    shownAfter (step (vector 0x00 0x02 0x77 0xFD 0x24 0x0400 [(0x0400, 0x94), (0x0401, 0xFF)])) =
      some ([0x00, 0x02, 0x77, 0xFD, 0x24, 0x0402, 4], [(0x0001, 0x77), (0x0400, 0x94), (0x0401, 0xFF)]) := by decide

/-- V41.10 (rules R184, R162). -/
theorem test_sta_V41_10 :
    shownAfter (step (vector 0xEE 0x00 0xFF 0xFD 0x24 0x0400 [(0x0010, 0x01), (0x0011, 0x20), (0x0400, 0x91), (0x0401, 0x10)])) =
      some ([0xEE, 0x00, 0xFF, 0xFD, 0x24, 0x0402, 6], [(0x0010, 0x01), (0x0011, 0x20), (0x0400, 0x91), (0x0401, 0x10), (0x2100, 0xEE)]) := by decide

/-- V41.11 (rule R187). -/
theorem test_tax_V41_11 :
    shownAfter (step (vector 0x00 0x00 0x00 0xFD 0xA4 0x0400 [(0x0400, 0xAA)])) =
      some ([0x00, 0x00, 0x00, 0xFD, 0x26, 0x0401, 2], [(0x0400, 0xAA)]) := by decide

/-- V41.12 (rule R188). -/
theorem test_tay_V41_12 :
    shownAfter (step (vector 0x90 0x00 0x00 0xFD 0x24 0x0400 [(0x0400, 0xA8)])) =
      some ([0x90, 0x00, 0x90, 0xFD, 0xA4, 0x0401, 2], [(0x0400, 0xA8)]) := by decide

/-- V41.13 (rule R189). -/
theorem test_txa_V41_13 :
    shownAfter (step (vector 0x00 0x7F 0x00 0xFD 0xA6 0x0400 [(0x0400, 0x8A)])) =
      some ([0x7F, 0x7F, 0x00, 0xFD, 0x24, 0x0401, 2], [(0x0400, 0x8A)]) := by decide

/-- V41.14 (rule R190). -/
theorem test_tya_V41_14 :
    shownAfter (step (vector 0x00 0x00 0xFF 0xFD 0x24 0x0400 [(0x0400, 0x98)])) =
      some ([0xFF, 0x00, 0xFF, 0xFD, 0xA4, 0x0401, 2], [(0x0400, 0x98)]) := by decide

/-- V41.15 (rule R191). -/
theorem test_tsx_V41_15 :
    shownAfter (step (vector 0x00 0x00 0x00 0x00 0x24 0x0400 [(0x0400, 0xBA)])) =
      some ([0x00, 0x00, 0x00, 0x00, 0x26, 0x0401, 2], [(0x0400, 0xBA)]) := by decide

/-- V41.16 (rule R192). -/
theorem test_txs_V41_16 :
    shownAfter (step (vector 0x00 0x00 0x00 0xFD 0xA4 0x0400 [(0x0400, 0x9A)])) =
      some ([0x00, 0x00, 0x00, 0x00, 0xA4, 0x0401, 2], [(0x0400, 0x9A)]) := by decide

/-- V41.17 (rule R193). -/
theorem test_and_V41_17 :
    shownAfter (step (vector 0xF0 0x00 0x00 0xFD 0x24 0x0400 [(0x0400, 0x29), (0x0401, 0x3C)])) =
      some ([0x30, 0x00, 0x00, 0xFD, 0x24, 0x0402, 2], [(0x0400, 0x29), (0x0401, 0x3C)]) := by decide

/-- V41.19 (rule R194). -/
theorem test_ora_V41_19 :
    shownAfter (step (vector 0x01 0x00 0x00 0xFD 0x24 0x0400 [(0x0400, 0x09), (0x0401, 0x80)])) =
      some ([0x81, 0x00, 0x00, 0xFD, 0xA4, 0x0402, 2], [(0x0400, 0x09), (0x0401, 0x80)]) := by decide

/-- V41.20 (rule R195). -/
theorem test_eor_V41_20 :
    shownAfter (step (vector 0xFF 0x00 0x00 0xFD 0x24 0x0400 [(0x0400, 0x49), (0x0401, 0xFF)])) =
      some ([0x00, 0x00, 0x00, 0xFD, 0x26, 0x0402, 2], [(0x0400, 0x49), (0x0401, 0xFF)]) := by decide

/-- V41.22 (rule R196). -/
theorem test_bit_V41_22 :
    shownAfter (step (vector 0x01 0x00 0x00 0xFD 0x24 0x0400 [(0x0010, 0xC0), (0x0400, 0x24), (0x0401, 0x10)])) =
      some ([0x01, 0x00, 0x00, 0xFD, 0xE6, 0x0402, 3], [(0x0010, 0xC0), (0x0400, 0x24), (0x0401, 0x10)]) := by decide

/-- V41.23 (rule R196). -/
theorem test_bit_V41_23 :
    shownAfter (step (vector 0xFF 0x00 0x00 0xFD 0xE4 0x0400 [(0x0400, 0x2C), (0x0402, 0x20), (0x2000, 0x3F)])) =
      some ([0xFF, 0x00, 0x00, 0xFD, 0x24, 0x0403, 4], [(0x0400, 0x2C), (0x0402, 0x20), (0x2000, 0x3F)]) := by decide

/-- V41.24 (rule R197). -/
theorem test_cmp_V41_24 :
    shownAfter (step (vector 0x40 0x00 0x00 0xFD 0x24 0x0400 [(0x0400, 0xC9), (0x0401, 0x40)])) =
      some ([0x40, 0x00, 0x00, 0xFD, 0x27, 0x0402, 2], [(0x0400, 0xC9), (0x0401, 0x40)]) := by decide

/-- V41.29 (rule R197). -/
theorem test_cmp_V41_29 :
    shownAfter (step (vector 0x7F 0x00 0x00 0xFD 0x6C 0x0400 [(0x0400, 0xC9), (0x0401, 0x80)])) =
      some ([0x7F, 0x00, 0x00, 0xFD, 0xEC, 0x0402, 2], [(0x0400, 0xC9), (0x0401, 0x80)]) := by decide

/-- V41.30 (rule R198). -/
theorem test_cpx_V41_30 :
    shownAfter (step (vector 0x00 0x10 0x00 0xFD 0x24 0x0400 [(0x0400, 0xE0), (0x0401, 0x10)])) =
      some ([0x00, 0x10, 0x00, 0xFD, 0x27, 0x0402, 2], [(0x0400, 0xE0), (0x0401, 0x10)]) := by decide

/-- V41.31 (rule R199). -/
theorem test_cpy_V41_31 :
    shownAfter (step (vector 0x00 0x00 0xFF 0xFD 0x24 0x0400 [(0x0400, 0xC4), (0x0401, 0x10)])) =
      some ([0x00, 0x00, 0xFF, 0xFD, 0xA5, 0x0402, 3], [(0x0400, 0xC4), (0x0401, 0x10)]) := by decide

/-- V42.1 (rules R220, R222). -/
theorem test_adc_V42_1 :
    shownAfter (step (vector 0x10 0x00 0x00 0xFD 0x25 0x0400 [(0x0400, 0x69), (0x0401, 0x20)])) =
      some ([0x31, 0x00, 0x00, 0xFD, 0x24, 0x0402, 2], [(0x0400, 0x69), (0x0401, 0x20)]) := by decide

/-- V42.3 (rules R221, R224). -/
theorem test_sbc_V42_3 :
    shownAfter (step (vector 0x50 0x00 0x00 0xFD 0x25 0x0400 [(0x0400, 0xE9), (0x0401, 0x10)])) =
      some ([0x40, 0x00, 0x00, 0xFD, 0x25, 0x0402, 2], [(0x0400, 0xE9), (0x0401, 0x10)]) := by decide

/-- V42.5 (rules R220, R223). -/
theorem test_adc_V42_5 :
    shownAfter (step (vector 0x58 0x00 0x00 0xFD 0x2D 0x0400 [(0x0400, 0x69), (0x0401, 0x46)])) =
      some ([0x05, 0x00, 0x00, 0xFD, 0xED, 0x0402, 2], [(0x0400, 0x69), (0x0401, 0x46)]) := by decide

/-- V42.6 (rules R221, R225). -/
theorem test_sbc_V42_6 :
    shownAfter (step (vector 0x12 0x00 0x00 0xFD 0x2D 0x0400 [(0x0400, 0xE9), (0x0401, 0x21)])) =
      some ([0x91, 0x00, 0x00, 0xFD, 0xAC, 0x0402, 2], [(0x0400, 0xE9), (0x0401, 0x21)]) := by decide

/-- V43.1 (rules R241, R152). -/
theorem test_asl_V43_1 :
    shownAfter (step (vector 0x81 0x00 0x00 0xFD 0x24 0x0400 [(0x0400, 0x0A)])) =
      some ([0x02, 0x00, 0x00, 0xFD, 0x25, 0x0401, 2], [(0x0400, 0x0A)]) := by decide

/-- V43.3 (rule R241). -/
theorem test_asl_V43_3 :
    shownAfter (step (vector 0x00 0x00 0x00 0xFD 0x24 0x0400 [(0x0010, 0x40), (0x0400, 0x06), (0x0401, 0x10)])) =
      some ([0x00, 0x00, 0x00, 0xFD, 0xA4, 0x0402, 5], [(0x0010, 0x80), (0x0400, 0x06), (0x0401, 0x10)]) := by decide

/-- V43.4 (rule R242). -/
theorem test_lsr_V43_4 :
    shownAfter (step (vector 0xFF 0x00 0x00 0xFD 0x24 0x0400 [(0x0400, 0x4A)])) =
      some ([0x7F, 0x00, 0x00, 0xFD, 0x25, 0x0401, 2], [(0x0400, 0x4A)]) := by decide

/-- V43.6 (rule R242). -/
theorem test_lsr_V43_6 :
    shownAfter (step (vector 0x00 0x00 0x00 0xFD 0x24 0x0400 [(0x0400, 0x4E), (0x0402, 0x20), (0x2000, 0x02)])) =
      some ([0x00, 0x00, 0x00, 0xFD, 0x24, 0x0403, 6], [(0x0400, 0x4E), (0x0402, 0x20), (0x2000, 0x01)]) := by decide

/-- V43.7 (rule R243). -/
theorem test_rol_V43_7 :
    shownAfter (step (vector 0x40 0x00 0x00 0xFD 0x25 0x0400 [(0x0400, 0x2A)])) =
      some ([0x81, 0x00, 0x00, 0xFD, 0xA4, 0x0401, 2], [(0x0400, 0x2A)]) := by decide

/-- V43.9 (rules R243, R155). -/
theorem test_rol_V43_9 :
    shownAfter (step (vector 0x00 0x01 0x00 0xFD 0x25 0x0400 [(0x0010, 0xFF), (0x0400, 0x36), (0x0401, 0x0F)])) =
      some ([0x00, 0x01, 0x00, 0xFD, 0xA5, 0x0402, 6], [(0x0010, 0xFF), (0x0400, 0x36), (0x0401, 0x0F)]) := by decide

/-- V43.10 (rule R244). -/
theorem test_ror_V43_10 :
    shownAfter (step (vector 0x01 0x00 0x00 0xFD 0x25 0x0400 [(0x0400, 0x6A)])) =
      some ([0x80, 0x00, 0x00, 0xFD, 0xA5, 0x0401, 2], [(0x0400, 0x6A)]) := by decide

/-- V43.12 (rules R244, R158). -/
theorem test_ror_V43_12 :
    shownAfter (step (vector 0x00 0x01 0x00 0xFD 0x25 0x0400 [(0x0400, 0x7E), (0x0401, 0xFF), (0x0402, 0x12), (0x1300, 0x02)])) =
      some ([0x00, 0x01, 0x00, 0xFD, 0xA4, 0x0403, 7], [(0x0400, 0x7E), (0x0401, 0xFF), (0x0402, 0x12), (0x1300, 0x81)]) := by decide

/-- V43.13 (rule R245). -/
theorem test_inc_V43_13 :
    shownAfter (step (vector 0x00 0x00 0x00 0xFD 0x25 0x0400 [(0x0010, 0xFF), (0x0400, 0xE6), (0x0401, 0x10)])) =
      some ([0x00, 0x00, 0x00, 0xFD, 0x27, 0x0402, 5], [(0x0400, 0xE6), (0x0401, 0x10)]) := by decide

/-- V43.14 (rule R245). -/
theorem test_inc_V43_14 :
    shownAfter (step (vector 0x00 0x00 0x00 0xFD 0x24 0x0400 [(0x0010, 0x7F), (0x0400, 0xE6), (0x0401, 0x10)])) =
      some ([0x00, 0x00, 0x00, 0xFD, 0xA4, 0x0402, 5], [(0x0010, 0x80), (0x0400, 0xE6), (0x0401, 0x10)]) := by decide

/-- V43.15 (rule R246). -/
theorem test_dec_V43_15 :
    shownAfter (step (vector 0x00 0x00 0x00 0xFD 0x24 0x0400 [(0x0400, 0xC6), (0x0401, 0x10)])) =
      some ([0x00, 0x00, 0x00, 0xFD, 0xA4, 0x0402, 5], [(0x0010, 0xFF), (0x0400, 0xC6), (0x0401, 0x10)]) := by decide

/-- V43.17 (rule R247). -/
theorem test_inx_V43_17 :
    shownAfter (step (vector 0x00 0xFF 0x00 0xFD 0x24 0x0400 [(0x0400, 0xE8)])) =
      some ([0x00, 0x00, 0x00, 0xFD, 0x26, 0x0401, 2], [(0x0400, 0xE8)]) := by decide

/-- V43.18 (rule R248). -/
theorem test_iny_V43_18 :
    shownAfter (step (vector 0x00 0x00 0x7F 0xFD 0x24 0x0400 [(0x0400, 0xC8)])) =
      some ([0x00, 0x00, 0x80, 0xFD, 0xA4, 0x0401, 2], [(0x0400, 0xC8)]) := by decide

/-- V43.19 (rule R249). -/
theorem test_dex_V43_19 :
    shownAfter (step (vector 0x00 0x00 0x00 0xFD 0x24 0x0400 [(0x0400, 0xCA)])) =
      some ([0x00, 0xFF, 0x00, 0xFD, 0xA4, 0x0401, 2], [(0x0400, 0xCA)]) := by decide

/-- V43.20 (rule R250). -/
theorem test_dey_V43_20 :
    shownAfter (step (vector 0x00 0x00 0x01 0xFD 0x24 0x0400 [(0x0400, 0x88)])) =
      some ([0x00, 0x00, 0x00, 0xFD, 0x26, 0x0401, 2], [(0x0400, 0x88)]) := by decide

/-- V44.1 (rule R261). -/
theorem test_bcc_V44_1 :
    shownAfter (step (vector 0x00 0x00 0x00 0xFD 0x24 0x0400 [(0x0400, 0x90), (0x0401, 0x02)])) =
      some ([0x00, 0x00, 0x00, 0xFD, 0x24, 0x0404, 3], [(0x0400, 0x90), (0x0401, 0x02)]) := by decide

/-- V44.3 (rule R262). -/
theorem test_bcs_V44_3 :
    shownAfter (step (vector 0x00 0x00 0x00 0xFD 0x25 0x0400 [(0x0400, 0xB0), (0x0401, 0xFE)])) =
      some ([0x00, 0x00, 0x00, 0xFD, 0x25, 0x0400, 3], [(0x0400, 0xB0), (0x0401, 0xFE)]) := by decide

/-- V44.4 (rule R263). -/
theorem test_beq_V44_4 :
    shownAfter (step (vector 0x00 0x00 0x00 0xFD 0x26 0x0400 [(0x0400, 0xF0), (0x0401, 0x7F)])) =
      some ([0x00, 0x00, 0x00, 0xFD, 0x26, 0x0481, 3], [(0x0400, 0xF0), (0x0401, 0x7F)]) := by decide

/-- V44.5 (rule R264). -/
theorem test_bne_V44_5 :
    shownAfter (step (vector 0x00 0x00 0x00 0xFD 0x24 0x040A [(0x040A, 0xD0), (0x040B, 0xF8)])) =
      some ([0x00, 0x00, 0x00, 0xFD, 0x24, 0x0404, 3], [(0x040A, 0xD0), (0x040B, 0xF8)]) := by decide

/-- V44.6 (rule R265). -/
theorem test_bmi_V44_6 :
    shownAfter (step (vector 0x00 0x00 0x00 0xFD 0xA4 0x0400 [(0x0400, 0x30), (0x0401, 0x80)])) =
      some ([0x00, 0x00, 0x00, 0xFD, 0xA4, 0x0382, 4], [(0x0400, 0x30), (0x0401, 0x80)]) := by decide

/-- V44.7 (rule R266). -/
theorem test_bpl_V44_7 :
    shownAfter (step (vector 0x00 0x00 0x00 0xFD 0x24 0x04F9 [(0x04F9, 0x10), (0x04FA, 0x05)])) =
      some ([0x00, 0x00, 0x00, 0xFD, 0x24, 0x0500, 4], [(0x04F9, 0x10), (0x04FA, 0x05)]) := by decide

/-- V44.9 (rule R267). -/
theorem test_bvc_V44_9 :
    shownAfter (step (vector 0x00 0x00 0x00 0xFD 0x24 0x0400 [(0x0400, 0x50)])) =
      some ([0x00, 0x00, 0x00, 0xFD, 0x24, 0x0402, 3], [(0x0400, 0x50)]) := by decide

/-- V44.10 (rule R268). -/
theorem test_bvs_V44_10 :
    shownAfter (step (vector 0x00 0x00 0x00 0xFD 0x64 0xFFF8 [(0xFFF8, 0x70), (0xFFF9, 0x10)])) =
      some ([0x00, 0x00, 0x00, 0xFD, 0x64, 0x000A, 4], [(0xFFF8, 0x70), (0xFFF9, 0x10)]) := by decide

/-- V45.1 (rule R282). -/
theorem test_jmp_V45_1 :
    shownAfter (step (vector 0x00 0x00 0x00 0xFD 0x24 0x0400 [(0x0400, 0x4C), (0x0402, 0x06)])) =
      some ([0x00, 0x00, 0x00, 0xFD, 0x24, 0x0600, 3], [(0x0400, 0x4C), (0x0402, 0x06)]) := by decide

/-- V45.2 (rules R282, R160). -/
theorem test_jmp_V45_2 :
    shownAfter (step (vector 0x00 0x00 0x00 0xFD 0x24 0x0400 [(0x0400, 0x6C), (0x0401, 0xFF), (0x0402, 0x10), (0x1000, 0x20), (0x1100, 0x30)])) =
      some ([0x00, 0x00, 0x00, 0xFD, 0x24, 0x2000, 5], [(0x0400, 0x6C), (0x0401, 0xFF), (0x0402, 0x10), (0x1000, 0x20), (0x1100, 0x30)]) := by decide

/-- V45.3 (rule R280). -/
theorem test_jsr_V45_3 :
    shownAfter (step (vector 0x00 0x00 0x00 0xFD 0x24 0x0400 [(0x0400, 0x20), (0x0402, 0x06)])) =
      some ([0x00, 0x00, 0x00, 0xFB, 0x24, 0x0600, 6], [(0x01FC, 0x02), (0x01FD, 0x04), (0x0400, 0x20), (0x0402, 0x06)]) := by decide

/-- V45.5 (rule R281). -/
theorem test_rts_V45_5 :
    shownAfter (step (vector 0x00 0x00 0x00 0xFB 0x24 0x0600 [(0x01FC, 0x02), (0x01FD, 0x04), (0x0600, 0x60)])) =
      some ([0x00, 0x00, 0x00, 0xFD, 0x24, 0x0403, 6], [(0x01FC, 0x02), (0x01FD, 0x04), (0x0600, 0x60)]) := by decide

/-- V45.6 (rule R281). -/
theorem test_rts_V45_6 :
    shownAfter (step (vector 0x00 0x00 0x00 0xFD 0x24 0x0600 [(0x01FE, 0xFF), (0x01FF, 0xFF), (0x0600, 0x60)])) =
      some ([0x00, 0x00, 0x00, 0xFF, 0x24, 0x0000, 6], [(0x01FE, 0xFF), (0x01FF, 0xFF), (0x0600, 0x60)]) := by decide

/-- V45.7 (rule R283). -/
theorem test_brk_V45_7 :
    shownAfter (step (vector 0x00 0x00 0x00 0xFF 0x21 0x0400 [(0xFFFF, 0x80)])) =
      some ([0x00, 0x00, 0x00, 0xFC, 0x25, 0x8000, 7], [(0x01FD, 0x31), (0x01FE, 0x02), (0x01FF, 0x04), (0xFFFF, 0x80)]) := by decide

/-- V45.8 (rule R283). -/
theorem test_brk_V45_8 :
    shownAfter (step (vector 0x00 0x00 0x00 0x01 0x2C 0x0400 [(0xFFFF, 0x80)])) =
      some ([0x00, 0x00, 0x00, 0xFE, 0x2C, 0x8000, 7], [(0x0100, 0x02), (0x0101, 0x04), (0x01FF, 0x3C), (0xFFFF, 0x80)]) := by decide

/-- V45.9 (rule R284). -/
theorem test_rti_V45_9 :
    shownAfter (step (vector 0x00 0x00 0x00 0xFC 0x24 0x8000 [(0x01FD, 0x31), (0x01FE, 0x02), (0x01FF, 0x04), (0x8000, 0x40)])) =
      some ([0x00, 0x00, 0x00, 0xFF, 0x31, 0x0402, 6], [(0x01FD, 0x31), (0x01FE, 0x02), (0x01FF, 0x04), (0x8000, 0x40)]) := by decide

/-- V45.10 (rule R284). -/
theorem test_rti_V45_10 :
    shownAfter (step (vector 0x00 0x00 0x00 0xFC 0x24 0x8000 [(0x01FD, 0xCF), (0x01FE, 0x34), (0x01FF, 0x12), (0x8000, 0x40)])) =
      some ([0x00, 0x00, 0x00, 0xFF, 0xEF, 0x1234, 6], [(0x01FD, 0xCF), (0x01FE, 0x34), (0x01FF, 0x12), (0x8000, 0x40)]) := by decide

/-- V45.11 (rule R285). -/
theorem test_pha_V45_11 :
    shownAfter (step (vector 0x42 0x00 0x00 0xFF 0x24 0x0400 [(0x0400, 0x48)])) =
      some ([0x42, 0x00, 0x00, 0xFE, 0x24, 0x0401, 3], [(0x01FF, 0x42), (0x0400, 0x48)]) := by decide

/-- V45.12 (rule R286). -/
theorem test_php_V45_12 :
    shownAfter (step (vector 0x00 0x00 0x00 0xFF 0x24 0x0400 [(0x0400, 0x08)])) =
      some ([0x00, 0x00, 0x00, 0xFE, 0x24, 0x0401, 3], [(0x01FF, 0x34), (0x0400, 0x08)]) := by decide

/-- V45.13 (rule R286). -/
theorem test_php_V45_13 :
    shownAfter (step (vector 0x00 0x00 0x00 0x00 0xE3 0x0400 [(0x0400, 0x08)])) =
      some ([0x00, 0x00, 0x00, 0xFF, 0xE3, 0x0401, 3], [(0x0100, 0xF3), (0x0400, 0x08)]) := by decide

/-- V45.14 (rule R287). -/
theorem test_pla_V45_14 :
    shownAfter (step (vector 0x00 0x00 0x00 0xFE 0x24 0x0400 [(0x0400, 0x68)])) =
      some ([0x00, 0x00, 0x00, 0xFF, 0x26, 0x0401, 4], [(0x0400, 0x68)]) := by decide

/-- V45.15 (rule R287). -/
theorem test_pla_V45_15 :
    shownAfter (step (vector 0x00 0x00 0x00 0xFF 0x24 0x0400 [(0x0100, 0x80), (0x0400, 0x68)])) =
      some ([0x80, 0x00, 0x00, 0x00, 0xA4, 0x0401, 4], [(0x0100, 0x80), (0x0400, 0x68)]) := by decide

/-- V45.16 (rule R288). -/
theorem test_plp_V45_16 :
    shownAfter (step (vector 0x00 0x00 0x00 0xFE 0x24 0x0400 [(0x01FF, 0xC3), (0x0400, 0x28)])) =
      some ([0x00, 0x00, 0x00, 0xFF, 0xE3, 0x0401, 4], [(0x01FF, 0xC3), (0x0400, 0x28)]) := by decide

/-- V45.17 (rule R288). -/
theorem test_plp_V45_17 :
    shownAfter (step (vector 0x00 0x00 0x00 0xFE 0x24 0x0400 [(0x0400, 0x28)])) =
      some ([0x00, 0x00, 0x00, 0xFF, 0x20, 0x0401, 4], [(0x0400, 0x28)]) := by decide

/-- V45.18 (rule R289). -/
theorem test_clc_V45_18 :
    shownAfter (step (vector 0x00 0x00 0x00 0xFD 0x25 0x0400 [(0x0400, 0x18)])) =
      some ([0x00, 0x00, 0x00, 0xFD, 0x24, 0x0401, 2], [(0x0400, 0x18)]) := by decide

/-- V45.19 (rule R290). -/
theorem test_sec_V45_19 :
    shownAfter (step (vector 0x00 0x00 0x00 0xFD 0x24 0x0400 [(0x0400, 0x38)])) =
      some ([0x00, 0x00, 0x00, 0xFD, 0x25, 0x0401, 2], [(0x0400, 0x38)]) := by decide

/-- V45.20 (rule R291). -/
theorem test_cli_V45_20 :
    shownAfter (step (vector 0x00 0x00 0x00 0xFD 0x24 0x0400 [(0x0400, 0x58)])) =
      some ([0x00, 0x00, 0x00, 0xFD, 0x20, 0x0401, 2], [(0x0400, 0x58)]) := by decide

/-- V45.21 (rule R292). -/
theorem test_sei_V45_21 :
    shownAfter (step (vector 0x00 0x00 0x00 0xFD 0x20 0x0400 [(0x0400, 0x78)])) =
      some ([0x00, 0x00, 0x00, 0xFD, 0x24, 0x0401, 2], [(0x0400, 0x78)]) := by decide

/-- V45.22 (rule R293). -/
theorem test_clv_V45_22 :
    shownAfter (step (vector 0x00 0x00 0x00 0xFD 0x64 0x0400 [(0x0400, 0xB8)])) =
      some ([0x00, 0x00, 0x00, 0xFD, 0x24, 0x0401, 2], [(0x0400, 0xB8)]) := by decide

/-- V45.23 (rule R294). -/
theorem test_cld_V45_23 :
    shownAfter (step (vector 0x00 0x00 0x00 0xFD 0x2C 0x0400 [(0x0400, 0xD8)])) =
      some ([0x00, 0x00, 0x00, 0xFD, 0x24, 0x0401, 2], [(0x0400, 0xD8)]) := by decide

/-- V45.24 (rule R295). -/
theorem test_sed_V45_24 :
    shownAfter (step (vector 0x00 0x00 0x00 0xFD 0x24 0x0400 [(0x0400, 0xF8)])) =
      some ([0x00, 0x00, 0x00, 0xFD, 0x2C, 0x0401, 2], [(0x0400, 0xF8)]) := by decide

/-- V45.25 (rule R296). -/
theorem test_nop_V45_25 :
    shownAfter (step (vector 0x00 0x00 0x00 0xFD 0x24 0x0400 [(0x0400, 0xEA)])) =
      some ([0x00, 0x00, 0x00, 0xFD, 0x24, 0x0401, 2], [(0x0400, 0xEA)]) := by decide

/-- V46.1 (rule R321). -/
theorem test_slo_V46_1 :
    shownAfter (step (vector 0x01 0x00 0x00 0xFD 0x24 0x0400 [(0x0010, 0x81), (0x0400, 0x07), (0x0401, 0x10)])) =
      some ([0x03, 0x00, 0x00, 0xFD, 0x25, 0x0402, 5], [(0x0010, 0x02), (0x0400, 0x07), (0x0401, 0x10)]) := by decide

/-- V46.2 (rule R321). -/
theorem test_slo_V46_2 :
    shownAfter (step (vector 0x00 0x01 0x00 0xFD 0x24 0x0400 [(0x0400, 0x1F), (0x0401, 0xFF), (0x0402, 0x12)])) =
      some ([0x00, 0x01, 0x00, 0xFD, 0x26, 0x0403, 7], [(0x0400, 0x1F), (0x0401, 0xFF), (0x0402, 0x12)]) := by decide

/-- V46.3 (rule R322). -/
theorem test_rla_V46_3 :
    shownAfter (step (vector 0xFF 0x00 0x00 0xFD 0x25 0x0400 [(0x0010, 0x40), (0x0400, 0x27), (0x0401, 0x10)])) =
      some ([0x81, 0x00, 0x00, 0xFD, 0xA4, 0x0402, 5], [(0x0010, 0x81), (0x0400, 0x27), (0x0401, 0x10)]) := by decide

/-- V46.4 (rule R323). -/
theorem test_sre_V46_4 :
    shownAfter (step (vector 0x01 0x00 0x00 0xFD 0x24 0x0400 [(0x0010, 0x03), (0x0400, 0x47), (0x0401, 0x10)])) =
      some ([0x00, 0x00, 0x00, 0xFD, 0x27, 0x0402, 5], [(0x0010, 0x01), (0x0400, 0x47), (0x0401, 0x10)]) := by decide

/-- V46.5 (rule R324). -/
theorem test_rra_V46_5 :
    shownAfter (step (vector 0x10 0x00 0x00 0xFD 0x24 0x0400 [(0x0010, 0x03), (0x0400, 0x67), (0x0401, 0x10)])) =
      some ([0x12, 0x00, 0x00, 0xFD, 0x24, 0x0402, 5], [(0x0010, 0x01), (0x0400, 0x67), (0x0401, 0x10)]) := by decide

/-- V46.6 (rules R324, R223). -/
theorem test_rra_V46_6 :
    shownAfter (step (vector 0x19 0x00 0x00 0xFD 0x2C 0x0400 [(0x0010, 0x03), (0x0400, 0x67), (0x0401, 0x10)])) =
      some ([0x21, 0x00, 0x00, 0xFD, 0x2C, 0x0402, 5], [(0x0010, 0x01), (0x0400, 0x67), (0x0401, 0x10)]) := by decide

/-- V46.7 (rule R325). -/
theorem test_sax_V46_7 :
    shownAfter (step (vector 0xF0 0x3C 0x00 0xFD 0x24 0x0400 [(0x0400, 0x87), (0x0401, 0x10)])) =
      some ([0xF0, 0x3C, 0x00, 0xFD, 0x24, 0x0402, 3], [(0x0010, 0x30), (0x0400, 0x87), (0x0401, 0x10)]) := by decide

/-- V46.9 (rule R326). -/
theorem test_lax_V46_9 :
    shownAfter (step (vector 0x00 0x00 0x00 0xFD 0x24 0x0400 [(0x0010, 0x80), (0x0400, 0xA7), (0x0401, 0x10)])) =
      some ([0x80, 0x80, 0x00, 0xFD, 0xA4, 0x0402, 3], [(0x0010, 0x80), (0x0400, 0xA7), (0x0401, 0x10)]) := by decide

/-- V46.10 (rule R326). -/
theorem test_lax_V46_10 :
    shownAfter (step (vector 0x00 0x00 0x01 0xFD 0x24 0x0400 [(0x0400, 0xBF), (0x0401, 0xFF), (0x0402, 0x12)])) =
      some ([0x00, 0x00, 0x01, 0xFD, 0x26, 0x0403, 5], [(0x0400, 0xBF), (0x0401, 0xFF), (0x0402, 0x12)]) := by decide

/-- V46.11 (rule R327). -/
theorem test_dcp_V46_11 :
    shownAfter (step (vector 0x40 0x00 0x00 0xFD 0x24 0x0400 [(0x0010, 0x41), (0x0400, 0xC7), (0x0401, 0x10)])) =
      some ([0x40, 0x00, 0x00, 0xFD, 0x27, 0x0402, 5], [(0x0010, 0x40), (0x0400, 0xC7), (0x0401, 0x10)]) := by decide

/-- V46.12 (rule R327). -/
theorem test_dcp_V46_12 :
    shownAfter (step (vector 0x00 0x00 0x00 0xFD 0x24 0x0400 [(0x0400, 0xC7), (0x0401, 0x10)])) =
      some ([0x00, 0x00, 0x00, 0xFD, 0x24, 0x0402, 5], [(0x0010, 0xFF), (0x0400, 0xC7), (0x0401, 0x10)]) := by decide

/-- V46.13 (rule R328). -/
theorem test_isc_V46_13 :
    shownAfter (step (vector 0x50 0x00 0x00 0xFD 0x25 0x0400 [(0x0010, 0x0F), (0x0400, 0xE7), (0x0401, 0x10)])) =
      some ([0x40, 0x00, 0x00, 0xFD, 0x25, 0x0402, 5], [(0x0010, 0x10), (0x0400, 0xE7), (0x0401, 0x10)]) := by decide

/-- V46.14 (rule R328). -/
theorem test_isc_V46_14 :
    shownAfter (step (vector 0x00 0x00 0x00 0xFD 0x24 0x0400 [(0x0010, 0xFF), (0x0400, 0xE7), (0x0401, 0x10)])) =
      some ([0xFF, 0x00, 0x00, 0xFD, 0xA4, 0x0402, 5], [(0x0400, 0xE7), (0x0401, 0x10)]) := by decide

/-- V46.19 (rule R339). -/
theorem test_nop_V46_19 :
    shownAfter (step (vector 0x00 0x01 0x00 0xFD 0x24 0x0400 [(0x0400, 0x3C), (0x0401, 0xFF), (0x0402, 0x12)])) =
      some ([0x00, 0x01, 0x00, 0xFD, 0x24, 0x0403, 5], [(0x0400, 0x3C), (0x0401, 0xFF), (0x0402, 0x12)]) := by decide

/-- V46.21 (rule R329). -/
theorem test_anc_V46_21 :
    shownAfter (step (vector 0xF0 0x00 0x00 0xFD 0x24 0x0400 [(0x0400, 0x0B), (0x0401, 0x80)])) =
      some ([0x80, 0x00, 0x00, 0xFD, 0xA5, 0x0402, 2], [(0x0400, 0x0B), (0x0401, 0x80)]) := by decide

/-- V46.23 (rule R330). -/
theorem test_alr_V46_23 :
    shownAfter (step (vector 0xFF 0x00 0x00 0xFD 0x24 0x0400 [(0x0400, 0x4B), (0x0401, 0x03)])) =
      some ([0x01, 0x00, 0x00, 0xFD, 0x25, 0x0402, 2], [(0x0400, 0x4B), (0x0401, 0x03)]) := by decide

/-- V46.25 (rule R331). -/
theorem test_arr_V46_25 :
    shownAfter (step (vector 0xFF 0x00 0x00 0xFD 0x25 0x0400 [(0x0400, 0x6B), (0x0401, 0xFF)])) =
      some ([0xFF, 0x00, 0x00, 0xFD, 0xA5, 0x0402, 2], [(0x0400, 0x6B), (0x0401, 0xFF)]) := by decide

/-- V46.28 (rule R331). -/
theorem test_arr_V46_28 :
    shownAfter (step (vector 0x99 0x00 0x00 0xFD 0x2D 0x0400 [(0x0400, 0x6B), (0x0401, 0xFF)])) =
      some ([0x22, 0x00, 0x00, 0xFD, 0xED, 0x0402, 2], [(0x0400, 0x6B), (0x0401, 0xFF)]) := by decide

/-- V46.30 (rule R333). -/
theorem test_axs_V46_30 :
    shownAfter (step (vector 0xFF 0x10 0x00 0xFD 0x24 0x0400 [(0x0400, 0xCB), (0x0401, 0x01)])) =
      some ([0xFF, 0x0F, 0x00, 0xFD, 0x25, 0x0402, 2], [(0x0400, 0xCB), (0x0401, 0x01)]) := by decide

/-- V46.32 (rule R338). -/
theorem test_las_V46_32 :
    shownAfter (step (vector 0x00 0x00 0x00 0xF0 0x24 0x0400 [(0x0400, 0xBB), (0x0402, 0x12), (0x1200, 0x3C)])) =
      some ([0x30, 0x30, 0x00, 0x30, 0x24, 0x0403, 4], [(0x0400, 0xBB), (0x0402, 0x12), (0x1200, 0x3C)]) := by decide

/-- V46.35 (rule R334). -/
theorem test_ahx_V46_35 :
    shownAfter (step (vector 0xFF 0xFF 0x05 0xFD 0x24 0x0400 [(0x0400, 0x9F), (0x0402, 0x12)])) =
      some ([0xFF, 0xFF, 0x05, 0xFD, 0x24, 0x0403, 5], [(0x0400, 0x9F), (0x0402, 0x12), (0x1205, 0x13)]) := by decide

/-- V46.37 (rule R335). -/
theorem test_shy_V46_37 :
    shownAfter (step (vector 0x00 0x05 0xFF 0xFD 0x24 0x0400 [(0x0400, 0x9C), (0x0402, 0x12)])) =
      some ([0x00, 0x05, 0xFF, 0xFD, 0x24, 0x0403, 5], [(0x0400, 0x9C), (0x0402, 0x12), (0x1205, 0x13)]) := by decide

/-- V46.38 (rule R336). -/
theorem test_shx_V46_38 :
    shownAfter (step (vector 0x00 0x03 0x05 0xFD 0x24 0x0400 [(0x0400, 0x9E), (0x0402, 0x12)])) =
      some ([0x00, 0x03, 0x05, 0xFD, 0x24, 0x0403, 5], [(0x0400, 0x9E), (0x0402, 0x12), (0x1205, 0x03)]) := by decide

/-- V46.39 (rule R337). -/
theorem test_tas_V46_39 :
    shownAfter (step (vector 0xF3 0x3F 0x05 0xFD 0x24 0x0400 [(0x0400, 0x9B), (0x0402, 0x12)])) =
      some ([0xF3, 0x3F, 0x05, 0x33, 0x24, 0x0403, 5], [(0x0400, 0x9B), (0x0402, 0x12), (0x1205, 0x13)]) := by decide

/-- V46.41 (rule R345). -/
theorem test_kil_V46_41 :
    shownAfter (step (vector 0x00 0x00 0x00 0xFD 0x24 0x0400 [(0x0400, 0x02)])) =
      some ([0x00, 0x00, 0x00, 0xFD, 0x24, 0x0401, 0], [(0x0400, 0x02)]) := by decide

/-- XAA and LAX immediate with A = 0xFF, where the MAGIC parameters drop out: 0xFF OR anything is 0xFF (R332, R341). -/
theorem test_xaa : ∃ t, exec (.xaaImm 0x3C) (vector 0xFF 0x0F 0 0xFD 0x24 0x0400 []) = .next t ∧
    t.a = (0xFF ||| Config.xaaMagic) &&& 0x0F &&& 0x3C ∧ t.pc = 0x0402 := ⟨_, rfl, rfl, rfl⟩

theorem test_lax_imm : ∃ t, exec (.laxImm 0x80) (vector 0xFF 0 0 0xFD 0x24 0x0400 []) = .next t ∧
    t.a = (0xFF ||| Config.laxMagic) &&& 0x80 ∧ t.x = t.a ∧ t.cycles = 2 := ⟨_, rfl, rfl, rfl, rfl⟩

/-! ## Interrupts, reset, the bus -/

/-- Vectors I1 and I7: what NMI and IRQ service leave. -/
theorem test_nmi_I1 :
    shownAfter (step (vector 0 0 0 0xFF 0x20 0x0405 [(0xFFFB, 0x90), (0xFFFF, 0x80)]).raiseNmi) =
      some ([0, 0, 0, 0xFC, 0x24, 0x9000, 7],
        [(0x01FD, 0x20), (0x01FE, 0x05), (0x01FF, 0x04), (0xFFFB, 0x90), (0xFFFF, 0x80)]) := by decide

theorem test_irq_I7 :
    shownAfter (step (vector 0 0 0 0x01 0xF3 0x1234 [(0xFFFB, 0x90), (0xFFFF, 0x80)]).raiseIrq) =
      some ([0, 0, 0, 0xFE, 0xF7, 0x8000, 7],
        [(0x0100, 0x34), (0x0101, 0x12), (0x01FF, 0xE3), (0xFFFB, 0x90), (0xFFFF, 0x80)]) := by decide

/-- Vector I8: with I set the IRQ is held while CLI executes. -/
theorem test_irq_held_I8 :
    shownAfter (step (vector 0 0 0 0xFF 0x24 0x0405 [(0x0405, 0x58)]).raiseIrq) =
      some ([0, 0, 0, 0xFF, 0x20, 0x0406, 2], [(0x0405, 0x58)]) := by decide

/-- Vector R1: what reset leaves, for a draw that clears every flag. -/
theorem test_reset_R1 :
    shownAfter ((((vector 0 0 0 0x33 0x20 0x1234 [(0xFFFD, 0x04)]).setHalted true).cpuReset ⟨0x99, 1, 2, 0, 5⟩).toResult) =
      some ([0x99, 1, 2, 0xFD, 0x24, 0x0400, 5], [(0xFFFD, 0x04)]) := by decide

/-- The state a session has reached, as far as a vector shows it. -/
def shownSession (r : SessionResult) : Option (List Nat × Memory) :=
  match r with
  | .next h => some (shownState h.state)
  | _ => none

/-- The draw of all zeros. -/
def zeroDraw : ResetDraw := ⟨0, 0, 0, 0, 0⟩

set_option maxRecDepth 20000 in
/-- The order of R415: construct, map, load LDA #$7F at 0x0400, reset, set PC by hand (R425), step. -/
theorem test_host_session :
    shownSession (runHost [.addDevice referenceRam, .map 0 0x0400 0x04FF, .load 0 0x0400 [0xA9, 0x7F], .reset zeroDraw,
      .setPC 0x0400, .step] (Session.start zeroDraw)) =
      some ([0x7F, 0, 0, 0xFD, 0x24, 0x0402, 2], [(0x0400, 0xA9), (0x0401, 0x7F)]) := by decide

/-- "A model has no step before that first reset" (R412). -/
theorem test_no_step_before_reset :
    (match runHost [.addDevice referenceRam, .setPC 0x0400, .step] (Session.start zeroDraw) with
      | .fault r => some r
      | _ => none) = some .notReset := by decide

/-- The text under vector V46.41: after a KIL a further step of the host changes nothing, not even with an NMI raised. -/
theorem test_host_step_while_halted :
    shownSession (runHost [.step, .step, .raiseNmi, .step] (.running (vector 0 0 0 0xFD 0x24 0x0400 [(0x0400, 0x02)]))) =
      some ([0, 0, 0, 0xFD, 0x24, 0x0401, 0], [(0x0400, 0x02)]) := by decide

set_option maxRecDepth 20000 in
/-- The registers and the memory of `State.reset` are what construction, the reference platform's mapping and reset with a
zero draw leave (R85, R410, R415), and every page slot that is looked at holds the device. -/
theorem test_reset_is_reset :
    (match runHost [.addDevice referenceRam, .map 0 0x0000 0xFFFF, .reset zeroDraw] (Session.start zeroDraw) with
      | .next (.running s) => decide (shownState s = shownState State.reset) && decide (s.intr = State.reset.intr) &&
          decide (s.halted = State.reset.halted) && decide (s.devices = State.reset.devices) &&
          decide (s.slots.get 0x00 = some 0) && decide (s.slots.get 0xFF = some 0)
      | _ => false) = true := by decide

/-- The platform of the spec's bus vectors, with two devices more: 0 the RAM, 1 the ROM, 2 a device that is no memory device
at page 0x20, 3 a released device at page 0x21, 4 one with no write capability at page 0x22. -/
def busPlatform : State :=
  ((((((((((((vector 0 0 0 0xFD 0x24 0x0400 []).setDevices []).setSlots (Vector.replicate 256 none)).addDevice
    (.memory .untracked 0x0800 [])).addDevice (.memory .readOnly 0x10000 [(0xF000, 0xA5)])).addDevice
    (.foreign 7 true 0)).addDevice referenceRam).addDevice (.foreign 8 false 0)).map 0 0x0000 0x07FF).map 1 0xF000 0xFFFF).map
    2 0x2000 0x20FF).map 3 0x2100 0x21FF).map 4 0x2200 0x22FF |>.release 3

/-- The value of a bus read. -/
def readAt (a : Addr) (s : State) : Option Byte :=
  match busRead a s with
  | .ok v _ => some v
  | .fault _ => none

/-- The value read after a write at the same address. -/
def readAfterWrite (a : Addr) (v : Byte) (s : State) : Option Byte :=
  match busWrite a v s with
  | .ok _ t => readAt a t
  | .fault _ => none

set_option maxRecDepth 20000 in
/-- Vectors B1 to B5: an empty slot, the ROM, the last byte of the RAM, and a read above the RAM's size. -/
theorem test_bus_B1_B5 :
    [readAt 0x4000 busPlatform, readAfterWrite 0x4000 0x55 busPlatform, readAfterWrite 0xF000 0x00 busPlatform,
      readAfterWrite 0x07FF 0x12 busPlatform, readAt 0x2100 busPlatform, readAt 0x0800 (busPlatform.map 0 0x0800 0x08FF)] =
    [some 0x00, some 0x00, some 0xA5, some 0x12, some 0x00, none] := by decide

set_option maxRecDepth 20000 in
/-- Vector B6: a later mapping takes over whole pages only. -/
theorem test_map_B6 :
    [((busPlatform.map 4 0x0010 0x0020).slots.get 0), ((busPlatform.map 4 0x0010 0x0020).slots.get 1),
      ((busPlatform.map 4 0x07F0 0x0810).slots.get 7), ((busPlatform.map 4 0x07F0 0x0810).slots.get 8)] =
    [some 4, some 0, some 4, some 4] := by decide

set_option maxRecDepth 20000 in
/-- Vector B9: INC of a ROM byte sets the flags and writes nothing. -/
theorem test_inc_rom_B9 : (match exec (.incAbs 0xF000) busPlatform with
    | .next s => some (s.p, s.byteAt 0xF000)
    | _ => none) = some (0xA4, some 0xA5) := by decide

/-- A write keeps the canonical form: storing 0x00 removes the entry. -/
theorem test_memory_canonical : Memory.write (Memory.write [(3, 7)] 1 5) 3 0 = [(1, 5)] := by decide

/-- `withFetchWord` places the word where the next step fetches it. -/
theorem test_withFetchWord :
    shownAfter (step (State.reset.withFetchWord 16 0x7FA9)) =
      some ([0x7F, 0, 0, 0xFD, 0x24, 0x0002, 2], [(0, 0xA9), (1, 0x7F)]) := by decide

/-! ## Witnesses: each statement's hypotheses are met together, clause by clause -/

/-- The reference platform with every byte of the given cells. -/
def ram (cells : Memory) : State := vector 0x81 0x20 0x01 0xFD 0x25 0x0400 cells

theorem ram_slotDevice (cells : Memory) (page : Fin 256) :
    (ram cells).slotDevice page = some (0, .memory .tracked 0x10000 cells) := by
  have h : (ram cells).slots.get page = some 0 := by simp [ram, vector, State.reset, Vector.get]
  exact slotDevice_some.2 ⟨h, rfl⟩

theorem ram_writable (cells : Memory) (a : Addr) : (ram cells).writableAt a = true := by
  have := a.isLt
  simp [State.writableAt, ram_slotDevice]
  omega

theorem reset_covered : State.reset.Covered := by
  intro page
  have h : State.reset.slots.get page = some 0 := by simp [State.reset, Vector.get]
  have := page.isLt
  have hs : State.reset.slotDevice page = some (0, .memory .tracked 0x10000 []) := slotDevice_some.2 ⟨h, rfl⟩
  simp [State.pageCovered, hs]
  omega

theorem reset_inv : State.reset.Inv := ⟨by decide, by decide⟩

theorem witness_DecodeOfEncode : (Instr.bvs (-128)).wellFormed = true ∧ (Instr.nopImm 0xE2 0xFF).wellFormed = true := by
  decide

theorem witness_EncodeOfDecode : decode [0xF0, 0x80, 0x02] = .ok (.beq (-128), [0x02]) := by rfl

/-- A held IRQ, an instruction at PC, and what the fetch gives. -/
theorem witness_StepRunsDecodedInstruction :
    ((ram [(0x0400, 0xAD), (0x0401, 0x34), (0x0402, 0x12)]).raiseIrq.halted = false ∧
      (ram [(0x0400, 0xAD), (0x0401, 0x34), (0x0402, 0x12)]).raiseIrq.intr = .irq ∧
      getFlag .i (ram [(0x0400, 0xAD), (0x0401, 0x34), (0x0402, 0x12)]).raiseIrq.p = true) ∧
    decode [0xAD, 0x34, 0x12] = .ok (.ldaAbs 0x1234, []) ∧
    (∀ k < 3, (ram [(0x0400, 0xAD), (0x0401, 0x34), (0x0402, 0x12)]).byteAt (0x0400 + BitVec.ofNat 16 k) =
      [0xAD, 0x34, 0x12][k]?) ∧
    ∃ t, fetch (ram [(0x0400, 0xAD), (0x0401, 0x34), (0x0402, 0x12)]).raiseIrq = .ok (.ldaAbs 0x1234) t :=
  ⟨by decide, rfl, by decide, _, rfl⟩

theorem witness_StepChoosesOneOfFour :
    (State.reset.setHalted true).halted = true ∧
    (State.reset.halted = false ∧ State.reset.raiseNmi.intr = .nmi) ∧
    ((State.reset.setP 0x20).raiseIrq.intr = .irq ∧ getFlag .i (State.reset.setP 0x20).raiseIrq.p = false) ∧
    (State.reset.intr = .none ∧ State.reset.raiseIrq.intr = .irq ∧ getFlag .i State.reset.raiseIrq.p = true) := by decide

theorem witness_NmiService :
    State.reset.raiseNmi.halted = false ∧ State.reset.raiseNmi.intr = .nmi ∧
      State.reset.raiseNmi.entryInRange 0xFFFA = true := by decide

/-- With SP = 0x00 the pushes wrap. -/
theorem witness_IrqService :
    ((State.reset.setP 0x20).setSP 0x00).raiseIrq.halted = false ∧ ((State.reset.setP 0x20).setSP 0x00).raiseIrq.intr = .irq ∧
      getFlag .i ((State.reset.setP 0x20).setSP 0x00).raiseIrq.p = false ∧
      ((State.reset.setP 0x20).setSP 0x00).raiseIrq.entryInRange 0xFFFE = true := by decide

theorem witness_RequestsAreLatched :
    State.reset.intr ≠ .nmi ∧ State.reset.raiseNmi.intr = .nmi ∧ State.reset.raiseIrq.intr = .irq := by decide

/-- A page-crossing read, a read in mode imm and one of each mnemonic of `LoadResults`. -/
theorem witness_LoadResults :
    (∃ t, (Instr.ldaAbsX 0x12F0).loadOperand (ram [(0x1310, 0x66)]) = some (.ok (0x66, true) t)) ∧
    (∃ t, (Instr.ldxImm 0xFF).loadOperand (ram []) = some (.ok (0xFF, false) t)) ∧
    (∃ t, (Instr.ldyZpX 0xF0).loadOperand (ram [(0x0010, 0x07)]) = some (.ok (0x07, false) t)) ∧
    ((Instr.laxIndY 0x10).entry.mode ≠ .imm ∧
      ∃ t, (Instr.laxIndY 0x10).loadOperand (ram [(0x0010, 0xFF), (0x0011, 0xFF)]) = some (.ok (0x00, true) t)) :=
  ⟨⟨_, rfl⟩, ⟨_, rfl⟩, ⟨_, rfl⟩, by decide, _, rfl⟩

theorem witness_LogicResults :
    (∃ t, (Instr.andImm 0x00).loadOperand (ram []) = some (.ok (0x00, false) t)) ∧
    (∃ t, (Instr.oraAbs 0xFFFF).loadOperand (ram [(0xFFFF, 0x7F)]) = some (.ok (0x7F, false) t)) ∧
    (∃ t, (Instr.eorIndX 0xDF).loadOperand (ram [(0x00FF, 0x34)]) = some (.ok (0x00, false) t)) :=
  ⟨⟨_, rfl⟩, ⟨_, rfl⟩, ⟨_, rfl⟩⟩

theorem witness_BitAndCompareResults :
    (∃ t, (Instr.bitZp 0x10).loadOperand (ram [(0x0010, 0xC0)]) = some (.ok (0xC0, false) t)) ∧
    (∃ t, (Instr.cmpImm 0x81).loadOperand (ram []) = some (.ok (0x81, false) t)) ∧
    (∃ t, (Instr.cpxAbs 0x0000).loadOperand (ram []) = some (.ok (0x00, false) t)) ∧
    (∃ t, (Instr.cpyZp 0xFF).loadOperand (ram []) = some (.ok (0x00, false) t)) :=
  ⟨⟨_, rfl⟩, ⟨_, rfl⟩, ⟨_, rfl⟩, _, rfl⟩

theorem witness_AddSubtractResults :
    (∃ t, (Instr.adcImm 0xFF).loadOperand (ram []) = some (.ok (0xFF, false) t)) ∧
    (∃ t, (Instr.sbcImmEB 0x00).loadOperand (ram []) = some (.ok (0x00, false) t)) ∧
    getFlag .d (ram []).p = false ∧ getFlag .d ((ram []).setP 0x2D).p = true ∧ getFlag .c (ram []).p = true :=
  ⟨⟨_, rfl⟩, ⟨_, rfl⟩, by decide⟩

set_option maxRecDepth 20000 in
/-- One store of each mnemonic, the last at an address where no device takes it. -/
theorem witness_StoreResults :
    (∃ u, (Instr.staAbsX 0xFFF0).Stores (ram []) 0x0010 true 0x81 u) ∧
    (∃ u, (Instr.stxZpY 0xFF).Stores (ram []) 0x0000 false 0x20 u) ∧
    (∃ u, (Instr.styAbs 0xFFFF).Stores (ram []) 0xFFFF false 0x01 u) ∧
    (∃ u, (Instr.saxAbs 0xF000).Stores busPlatform 0xF000 false 0x00 u) :=
  ⟨⟨_, _, ⟨_, rfl, rfl⟩, rfl⟩, ⟨_, _, ⟨_, rfl, rfl⟩, rfl⟩, ⟨_, _, ⟨_, rfl, rfl⟩, rfl⟩, _, _, ⟨_, rfl, rfl⟩, rfl⟩

theorem witness_RegisterResults : ∃ t, t = { State.reset with pc := State.reset.pc + 1, cycles := State.reset.cycles + 2 } :=
  ⟨_, rfl⟩

set_option maxRecDepth 20000 in
theorem witness_ModifyResults :
    (Instr.rolAcc).entry.mode = .acc ∧ (Instr.rolAcc).mnemonic = .rol ∧ (Instr.aslAcc).entry.mode = .acc ∧
    (∃ u, (Instr.aslZp 0x10).Modifies (ram [(0x0010, 0x80)]) 0x0010 false 0x80 (aslByte 0x80 0x25).1 u) ∧
    (∃ u, (Instr.lsrAbs 0x1234).Modifies (ram [(0x1234, 0x01)]) 0x1234 false 0x01 (lsrByte 0x01 0x25).1 u) ∧
    (∃ u, (Instr.rorAbsX 0x12F0).Modifies (ram []) 0x1310 true 0x00 (rorByte 0x00 0x25).1 u) ∧
    (∃ u, (Instr.incZpX 0xE0).Modifies (ram [(0x0000, 0xFF)]) 0x0000 false 0xFF (incByte 0xFF 0x25).1 u) ∧
    (∃ u, (Instr.decAbs 0x4000).Modifies busPlatform 0x4000 false 0x00 (decByte 0x00 0x24).1 u) :=
  ⟨rfl, rfl, rfl, ⟨_, _, _, ⟨_, rfl, rfl⟩, rfl, rfl⟩, ⟨_, _, _, ⟨_, rfl, rfl⟩, rfl, rfl⟩, ⟨_, _, _, ⟨_, rfl, rfl⟩, rfl, rfl⟩,
    ⟨_, _, _, ⟨_, rfl, rfl⟩, rfl, rfl⟩, _, _, _, ⟨_, rfl, rfl⟩, rfl, rfl⟩

/-- At 0x0480: not taken; taken with offset 127 into the next page; taken with offset -128 in the same page. -/
theorem witness_BranchResults :
    ((Instr.bcc 5).wellFormed = true ∧ encode (.bcc 5) = [0x90, 0x05] ∧ getFlag .c ((ram []).setPC 0x0480).p ≠ false) ∧
    ((Instr.bcs 127).wellFormed = true ∧ encode (.bcs 127) = [0xB0, 0x7F] ∧ getFlag .c ((ram []).setPC 0x0480).p = true ∧
      ((0x0482 : Addr) + (0x7F : Byte).signExtend 16).toNat / 256 ≠ (0x0482 : Addr).toNat / 256) ∧
    ((Instr.bne (-128)).wellFormed = true ∧ encode (.bne (-128)) = [0xD0, 0x80] ∧
      getFlag .z ((ram []).setPC 0x0480).p = false ∧
      ((0x0482 : Addr) + (0x80 : Byte).signExtend 16).toNat / 256 = (0x0482 : Addr).toNat / 256) := by decide

/-- The source's JMP ($10FF), and a plain jump. -/
theorem witness_JumpResults :
    (∃ t, (Instr.jmpInd 0x10FF).Addresses (ram [(0x1000, 0x20), (0x1100, 0x30)]) 0x2000 false t) ∧
    (∃ t, (Instr.jmpAbs 0x040F).Addresses (ram []) 0x040F false t) :=
  ⟨⟨_, _, rfl, rfl⟩, _, _, rfl, rfl⟩

theorem witness_SubroutineResults :
    ((ram []).inRange (pushTarget 0xFD 0) = true ∧ (ram []).inRange (pushTarget 0xFD 1) = true) ∧
    ∃ t u, busRead (stackAddr (0xFF + 1)) ((ram [(0x0100, 0x34), (0x0101, 0x12)]).setSP 0xFF) = .ok 0x34 t ∧
      busRead (stackAddr (0xFF + 2)) t = .ok 0x12 u :=
  ⟨by decide, _, _, rfl, rfl⟩

theorem witness_BrkTakesInterrupt : (ram []).entryInRange 0xFFFE = true := by decide

theorem witness_RtiRestores :
    ∃ t u w, busRead (stackAddr (0xFE + 1)) ((ram [(0x0100, 0x34), (0x0101, 0x12), (0x01FF, 0xFF)]).setSP 0xFE) = .ok 0xFF t ∧
      busRead (stackAddr (0xFE + 2)) t = .ok 0x34 u ∧ busRead (stackAddr (0xFE + 3)) u = .ok 0x12 w :=
  ⟨_, _, _, rfl, rfl, rfl⟩

theorem witness_PushAndPullResults :
    ((ram []).setSP 0x00).inRange (pushTarget 0x00 0) = true ∧
    ∃ t, busRead (stackAddr (0xFF + 1)) ((ram [(0x0100, 0xCF)]).setSP 0xFF) = .ok 0xCF t :=
  ⟨by decide, _, rfl⟩

theorem witness_NopResults :
    ((Instr.nop).mnemonic = .nop ∧ (Instr.nop).memOperand = none) ∧
    ((Instr.nopImm 0x80 0x55).mnemonic = .nop ∧ (Instr.nopImm 0x80 0x55).memOperand = none) ∧
    ∃ t, (Instr.nopAbsX 0xFC 0x12F0).loadOperand (ram []) = some (.ok (0x00, true) t) :=
  ⟨by decide, by decide, _, rfl⟩

theorem witness_CombinationResults :
    (∃ u, (Instr.sloAbsX 0x12FF).Modifies (ram [(0x131F, 0x81)]) 0x131F true 0x81 0x02 u ∧ ((0x02 : Byte), (0x25 : Byte)) = aslByte 0x81 0x25) ∧
    (∃ u, (Instr.rlaZp 0x10).Modifies (ram [(0x0010, 0x40)]) 0x0010 false 0x40 0x81 u ∧ ((0x81 : Byte), (0xA4 : Byte)) = rolByte 0x40 0x25) ∧
    (∃ u, (Instr.sreAbs 0x1234).Modifies (ram [(0x1234, 0x01)]) 0x1234 false 0x01 0x00 u ∧ ((0x00 : Byte), (0x27 : Byte)) = lsrByte 0x01 0x25) ∧
    (∃ u, (Instr.rraIndX 0xE0).Modifies (ram [(0x0001, 0x30), (0x3000, 0x03)]) 0x3000 false 0x03 0x81 u ∧ ((0x81 : Byte), (0xA5 : Byte)) = rorByte 0x03 0x25) ∧
    (∃ u, (Instr.dcpIndY 0x10).Modifies (ram [(0x0011, 0x12)]) 0x1201 false 0x00 0xFF u ∧ ((0xFF : Byte), (0xA5 : Byte)) = decByte 0x00 0x25) ∧
    (∃ u, (Instr.iscAbsY 0x12FF).Modifies (ram [(0x1300, 0xFF)]) 0x1300 true 0xFF 0x00 u ∧ ((0x00 : Byte), (0x27 : Byte)) = incByte 0xFF 0x25) :=
  ⟨⟨_, ⟨_, _, ⟨_, rfl, rfl⟩, rfl, rfl⟩, rfl⟩, ⟨_, ⟨_, _, ⟨_, rfl, rfl⟩, rfl, rfl⟩, rfl⟩, ⟨_, ⟨_, _, ⟨_, rfl, rfl⟩, rfl, rfl⟩, rfl⟩,
    ⟨_, ⟨_, _, ⟨_, rfl, rfl⟩, rfl, rfl⟩, rfl⟩, ⟨_, ⟨_, _, ⟨_, rfl, rfl⟩, rfl, rfl⟩, rfl⟩, _, ⟨_, _, ⟨_, rfl, rfl⟩, rfl, rfl⟩, rfl⟩

/-- One operand of each mnemonic, and ARR with D clear and with D set. -/
theorem witness_StableCombinationResults :
    (∃ t, (Instr.ancImm2B 0x80).loadOperand (ram []) = some (.ok (0x80, false) t)) ∧
    (∃ t, (Instr.alrImm 0x01).loadOperand (ram []) = some (.ok (0x01, false) t)) ∧
    (∃ t, (Instr.axsImm 0xFF).loadOperand (ram []) = some (.ok (0xFF, false) t)) ∧
    (∃ t, (Instr.lasAbsY 0x12FF).loadOperand (ram [(0x1300, 0x3C)]) = some (.ok (0x3C, true) t)) ∧
    (∃ t, (Instr.arrImm 0xFF).loadOperand (ram []) = some (.ok (0xFF, false) t)) ∧
    getFlag .d (ram []).p = false ∧ getFlag .d ((ram []).setP 0x2D).p = true :=
  ⟨⟨_, rfl⟩, ⟨_, rfl⟩, ⟨_, rfl⟩, ⟨_, rfl⟩, ⟨_, rfl⟩, by decide⟩

theorem witness_ImmediateMagicResults (s : State) (d : Byte) :
    (∃ t, t = { s with pc := s.pc + 2, cycles := s.cycles + 2 }) ∧ (∃ v, v = (s.a ||| Config.xaaMagic) &&& s.x &&& d) ∧
      ∃ v, v = (s.a ||| Config.laxMagic) &&& d :=
  ⟨⟨_, rfl⟩, ⟨_, rfl⟩, _, rfl⟩

/-- The four mnemonics, with the spec's vectors V46.35 to V46.40: the index crosses a page in the last. -/
theorem witness_UnstableStoreResults :
    (∃ u, (Instr.ahxAbsY 0x1200).Stores (vector 0xFF 0xFF 0x05 0xFD 0x24 0x0400 []) 0x1205 false 0x13 u) ∧
    (∃ u, (Instr.shyAbsX 0x1200).Stores (vector 0 0x05 0xFF 0xFD 0x24 0x0400 []) 0x1205 false 0x13 u) ∧
    (∃ u, (Instr.tasAbsY 0x1200).Stores (vector 0xF3 0x3F 0x05 0xFD 0x24 0x0400 []) 0x1205 false 0x13 u) ∧
    (∃ u, (Instr.shxAbsY 0x12FF).Stores (vector 0 0xFF 0x01 0xFD 0x24 0x0400 []) 0x1300 true 0x13 u) ∧
    ((0x13 : Byte) = 0xFF &&& 0xFF &&& (hiByte ((0x1205 : Addr) - zext16 0x05) + 1)) ∧
    ((0x13 : Byte) = 0xFF &&& (hiByte ((0x1300 : Addr) - zext16 0x01) + 1)) ∧
    ((0x13 : Byte) = 0xF3 &&& 0x3F &&& (hiByte ((0x1205 : Addr) - zext16 0x05) + 1)) ∧
    (Instr.shyAbsX 0x1200).entry.mode = .abx ∧ (Instr.ahxIndY 0x10).entry.mode ≠ .abx :=
  ⟨⟨_, _, ⟨_, rfl, rfl⟩, rfl⟩, ⟨_, _, ⟨_, rfl, rfl⟩, rfl⟩, ⟨_, _, ⟨_, rfl, rfl⟩, rfl⟩, ⟨_, _, ⟨_, rfl, rfl⟩, rfl⟩, by decide⟩

theorem witness_KilHalts : ∃ t, t = { State.reset with halted := true, pc := State.reset.pc + 1 } := ⟨_, rfl⟩

theorem witness_SetZN : Flag.c ≠ .z ∧ Flag.c ≠ .n := by decide

/-- The ends of the ranges of `AddBinary` and `SubBinary`: 0xFF + 0xFF + 1, 0x7F + 1, 0 - 0xFF - 1. -/
theorem witness_binary :
    (addBinary 0xFF 0xFF true 0x20).1 = 0xFF ∧ (addBinary 0x7F 0x01 false 0x20).1 = 0x80 ∧
      (subBinary 0x00 0xFF false 0x20).1 = 0x00 := by decide

/-- Digits 99 + 99 + 1 and 0 - 99 - 1, and an operand that is no digit. -/
theorem witness_decimal :
    (addDecimal 0x99 0x99 true 0x28).1 = 0x99 ∧ (subDecimal 0x00 0x99 false 0x28).1 = 0x00 ∧
      (0x99 : Byte).toNat = 16 * 9 + 9 ∧ (addDecimal 0xFF 0x0F false 0x28).1.toNat < 256 := by decide

/-- The device number in a slot, and a device by its number. -/
def slotOf (s : State) (page : Fin 256) : Option Nat := s.slots.get page
def deviceOf (s : State) (d : Nat) : Option (Option Device) := s.devices[d]?

set_option maxRecDepth 20000 in
/-- The five kinds of slot of `BusAccess`: an empty slot, a released device, the RAM, the ROM, and devices that are no memory
devices, with and without a write capability; and the RAM's size between the addresses 0x07FF and 0x0800. -/
theorem witness_BusAccess :
    [slotOf busPlatform 0x40, slotOf busPlatform 0x21, slotOf busPlatform 0x07, slotOf busPlatform 0xFF,
      slotOf busPlatform 0x20, slotOf busPlatform 0x22, slotOf (busPlatform.map 0 0x0800 0x08FF) 0x08] =
      [none, some 3, some 0, some 1, some 2, some 4, some 0] ∧
    [deviceOf busPlatform 3, deviceOf busPlatform 0, deviceOf busPlatform 1, deviceOf busPlatform 2, deviceOf busPlatform 4] =
      [some none, some (some (.memory .untracked 0x0800 [])), some (some (.memory .readOnly 0x10000 [(0xF000, 0xA5)])),
        some (some (.foreign 7 true 0)), some (some (.foreign 8 false 0))] ∧
    (0x07FF : Addr).toNat < 0x0800 ∧ 0x0800 ≤ (0x0800 : Addr).toNat := by decide

/-- A read-only device of 0x0800 bytes mapped over its last page and the page above it. -/
def smallRom : State := (State.reset.setDevices [some (.memory .readOnly 0x0800 [(0x07FF, 0xA5)])]).map 0 0x0700 0x08FF

set_option maxRecDepth 20000 in
/-- At the size of a read-only device: the hypotheses of `BusAccess` at the last address inside and the first outside; a read
there faults (R83), a write is dropped on both sides (R74; log 21). -/
theorem witness_BusAccess_readOnly :
    slotOf smallRom 0x07 = some 0 ∧ slotOf smallRom 0x08 = some 0 ∧
    deviceOf smallRom 0 = some (some (.memory .readOnly 0x0800 [(0x07FF, 0xA5)])) ∧ 0x0800 ≤ (0x0800 : Addr).toNat ∧
    [readAt 0x07FF smallRom, readAfterWrite 0x07FF 0x12 smallRom, readAt 0x0800 smallRom] = [some 0xA5, some 0xA5, none] ∧
    (match busWrite 0x0800 0x12 smallRom with
      | .ok _ t => deviceOf t 0
      | .fault _ => none) = some (some (.memory .readOnly 0x0800 [(0x07FF, 0xA5)])) := by decide

set_option maxRecDepth 20000 in
theorem witness_ReadAfterWrite :
    (∃ t, busRead 0xF000 busPlatform = .ok 0xA5 t) ∧ (∃ t, busWrite 0x07FF 0x12 busPlatform = .ok () t) ∧
      busPlatform.memoryWf = true ∧ busPlatform.writableAt 0x07FF = true :=
  ⟨⟨_, rfl⟩, ⟨_, rfl⟩, by decide⟩

/-- Pointers at the end of a page and of the zero page. -/
theorem witness_PointerModes :
    ((ram [(0x1000, 0x20), (0x1100, 0x30)]).byteAt 0x10FF = some 0x00 ∧
      (ram [(0x1000, 0x20), (0x1100, 0x30)]).byteAt 0x1000 = some 0x20 ∧
      (0x1000 : Addr).toNat = (0x10FF : Addr).toNat / 256 * 256 + ((0x10FF : Addr).toNat + 1) % 256) ∧
    ((ram [(0x0000, 0x32)]).byteAt 0x00FF = some 0x00 ∧ (ram [(0x0000, 0x32)]).byteAt 0x0000 = some 0x32 ∧
      (0x0000 : Addr).toNat = (0x00FF : Addr).toNat / 256 * 256 + ((0x00FF : Addr).toNat + 1) % 256 ∧
      (0x00FF : Addr).toNat = ((0xDF : Byte).toNat + (0x20 : Byte).toNat) % 256 ∧
      (0x3201 : Addr).toNat = ((0x3200 : Addr).toNat + (0x01 : Byte).toNat) % 65536) := by decide

/-- Three pushes that wrap from 0x0100 to 0x01FF. -/
theorem witness_StackPushes : ∃ t, pushAll [1, 2, 3] ((ram []).setSP 0x00) = .ok () t := ⟨_, rfl⟩

set_option maxRecDepth 20000 in
theorem witness_PopsUndoPushes :
    (ram []).memoryWf = true ∧ (∀ sp : Byte, (ram []).writableAt (stackAddr sp) = true) ∧
      ∃ t, pushAll [1, 2, 3] ((ram []).setSP 0x01) = .ok () t :=
  ⟨by decide, fun _ => ram_writable _ _, _, rfl⟩

set_option maxRecDepth 20000 in
theorem witness_ReleaseAndResetAll :
    slotOf busPlatform (pageOf 0x07FF) = some 0 ∧ slotOf busPlatform 0xFF ≠ some 0 ∧
      deviceOf State.reset 0 = some (some (.memory .tracked 0x10000 [])) ∧
      deviceOf busPlatform 0 = some (some (.memory .untracked 0x0800 [])) := by decide

theorem witness_ResetLeaves :
    ∃ t u, busRead 0xFFFC (ram [(0xFFFD, 0x04)]) = .ok 0x00 t ∧ busRead 0xFFFD t = .ok 0x04 u := ⟨_, _, rfl, rfl⟩

theorem witness_InvariantKeptByStep : State.reset.Inv ∧ ∃ t, step State.reset = .next t := ⟨reset_inv, _, rfl⟩

theorem witness_InvariantKeptByHost :
    (Session.running State.reset).state.Inv ∧ referenceRam.wf = true ∧
      (∃ k, applyHost (.addDevice referenceRam) (.running State.reset) = .next k) ∧
      (∃ k, applyHost (.reset zeroDraw) (.building State.reset) = .next k) ∧
      (∃ k, applyHost .step (.running (State.reset.setHalted true)) = .next k) :=
  ⟨reset_inv, by decide, ⟨_, rfl⟩, ⟨_, rfl⟩, _, rfl⟩

theorem witness_NoFaultOnCoveredPlatform : State.reset.Covered ∧ State.reset.halted = false := ⟨reset_covered, rfl⟩

set_option maxRecDepth 20000 in
/-- Vector B5 as an instruction: the fault happens. -/
theorem witness_OnlyOutOfRangeFaults :
    exec (.ldaAbs 0x0800) (busPlatform.map 0 0x0800 0x08FF) = .fault (.deviceOutOfRange 0x0800) := by rfl

theorem witness_StepIgnoresCycles :
    (∃ t, step (State.reset.addCycles 3) = .next t) ∧ step (State.reset.setHalted true) = .fault .halted := ⟨⟨_, rfl⟩, rfl⟩

theorem witness_BreakFlagIsInert :
    (∃ t, step (State.reset.setP (putFlag .b true State.reset.p)) = .next t) ∧
      step (State.reset.setHalted true) = .fault .halted := ⟨⟨_, rfl⟩, rfl⟩

set_option maxRecDepth 20000 in
/-- A step on a platform with a device of every kind: a released one, memory of two flavours, and one that is no memory
device. -/
theorem witness_StepKeepsPlatform :
    (∃ t, step busPlatform = .next t) ∧ deviceOf busPlatform 3 = some none ∧
      deviceOf busPlatform 1 = some (some (.memory .readOnly 0x10000 [(0xF000, 0xA5)])) ∧
      deviceOf busPlatform 2 = some (some (.foreign 7 true 0)) := ⟨⟨_, rfl⟩, by decide⟩

theorem witness_WritersOfRegistersAndFlags :
    (∃ t, exec .clc State.reset = .next t) ∧ Mnemonic.clc ∉ registerWriters .a ∧ Mnemonic.clc ∉ registerWriters .sp ∧
      Mnemonic.clc ∉ flagWriters .z ∧ getFlag .u State.reset.p = true := ⟨⟨_, rfl⟩, by decide⟩

theorem witness_PcAndCycles :
    (∃ t, exec (.ldaAbsX 0x12F0) (ram []) = .next t) ∧ (Instr.ldaAbsX 0x12F0).entry.mode ≠ .rel ∧
      (∃ u, (Instr.ldaAbsX 0x12F0).Addresses (ram []) 0x1310 true u) ∧
      (∃ t, exec .inx (ram []) = .next t) ∧ (Instr.inx).memOperand = none :=
  ⟨⟨_, rfl⟩, by decide, ⟨_, _, rfl, rfl⟩, ⟨_, rfl⟩, rfl⟩

theorem witness_PageCrossSources :
    (Instr.ldaIndY 0x10).wellFormed = true ∧
      ∃ t, (Instr.ldaIndY 0x10).Addresses (ram [(0x0010, 0xFF), (0x0011, 0x12)]) 0x1300 true t :=
  ⟨rfl, _, _, rfl, rfl⟩

set_option maxRecDepth 20000 in
theorem witness_ReturnUndoesEntry :
    ((ram []).memoryWf = true ∧ ∀ sp : Byte, (ram []).writableAt (stackAddr sp) = true) ∧
    (∃ t u, exec (.brk 0xEA) (ram []) = .next t ∧ exec .rti t = .next u) ∧
    (∃ t u, step (ram []).raiseNmi = .next t ∧ exec .rti t = .next u) ∧
    (∃ t u, step ((ram []).setP 0x21).raiseIrq = .next t ∧ exec .rti t = .next u ∧
      getFlag .i ((ram []).setP 0x21).raiseIrq.p = false) :=
  ⟨⟨by decide, fun _ => ram_writable _ _⟩, ⟨_, _, rfl, rfl⟩, ⟨_, _, rfl, rfl⟩, _, _, rfl, rfl, by decide⟩

set_option maxRecDepth 20000 in
theorem witness_RtsUndoesJsr :
    (ram []).memoryWf = true ∧ ∀ sp : Byte, (ram []).writableAt (stackAddr sp) = true := ⟨by decide, fun _ => ram_writable _ _⟩

/-- A memory byte outside the two pushed ones. -/
theorem witness_RtsUndoesJsr_memory :
    (0x01FB : Addr) ≠ pushTarget (ram []).sp 0 ∧ (0x01FB : Addr) ≠ pushTarget (ram []).sp 1 ∧
      pushTarget (ram []).sp 0 = 0x01FD ∧ pushTarget (ram []).sp 1 = 0x01FC := by decide

theorem witness_NoStepBeforeFirstReset :
    (∃ t, (State.constructed zeroDraw).cpuReset zeroDraw = .ok () t) ∧
      ∃ k, runHost ([.addDevice referenceRam, .reset zeroDraw] ++ .step :: [.raiseIrq]) (Session.start zeroDraw) = .next k :=
  ⟨⟨_, rfl⟩, _, rfl⟩

end Sys2Proof.Tests
end

section
/-! PROOF. The obligation of 00_scope.md: what `setZN` does to the flags of P (R11). -/

namespace Sys2Proof.Proofs.Scope
open Sys2Proof.Machine

/-- Settles O31, flag by flag from `getFlag_setZN`. -/
theorem setZN : Obligations.SetZN := by
  intro v p
  refine ⟨?zero, ?negative, ?others⟩
  case zero => rw [getFlag_setZN, if_neg (by decide), if_pos rfl, beq_eq_decide]
  case negative => rw [getFlag_setZN, if_pos rfl, BitVec.msb_eq_getLsbD_last]
  case others =>
    intro g hz hn
    rw [getFlag_setZN, if_neg hn, if_neg hz]

end Sys2Proof.Proofs.Scope
end

section
/-! PROOF. The obligation of 20_memory.md: which page slots `map` gives to a device (R72). -/

namespace Sys2Proof.Proofs.Memory
open Sys2Proof.Machine

/-- By induction on `n`: the first page is set before the rest, and the rest, which starts above it, keeps it. -/
theorem get_fillSlots (d : Nat) (slots : Vector (Option Nat) 256) (first n : Nat) (page : Fin 256) :
    (fillSlots d slots first n).get page =
      if first ≤ page.val ∧ page.val < first + n then some d else slots.get page := by
  induction n generalizing slots first with
  | zero => rw [fillSlots, if_neg (by omega)]
  | succ n ih =>
    rw [fillSlots, ih, Vector.get_eq_getElem, Vector.getElem_setIfInBounds, ← Vector.get_eq_getElem]
    by_cases heq : first = page.val
    · rw [if_neg (by omega), if_pos heq, if_pos (by omega)]
    · have hrest : first + 1 ≤ page.val ∧ page.val < first + 1 + n ↔ first ≤ page.val ∧ page.val < first + (n + 1) := by
        omega
      simp only [if_neg heq, hrest]

/-- Settles O44: the count of pages that `map` fills ends at the last address's page, or is 0 when that page is below the
first's. -/
theorem mapReplacesWholePages : Obligations.MapReplacesWholePages := by
  intro s d first last
  refine ⟨fun page => ?slot, rfl⟩
  have hrange : first.toNat / 256 ≤ page.val ∧
      page.val < first.toNat / 256 + (last.toNat / 256 + 1 - first.toNat / 256) ↔
      first.toNat / 256 ≤ page.val ∧ page.val ≤ last.toNat / 256 := by omega
  rw [State.map, State.setSlots_slots, get_fillSlots, hiByte_toNat, hiByte_toNat]
  simp only [hrange]

end Sys2Proof.Proofs.Memory
end

section
/-! PROOF. The obligation of 42_arithmetic.md: binary addition and its four flags (R222). -/

namespace Sys2Proof.Proofs.Arithmetic
open Sys2Proof.Machine

/-- A byte as an unsigned and as a two's-complement number, by its sign (R226). -/
theorem toInt_byte_cases (v : Byte) :
    v.toNat < 128 ∧ v.toInt = v.toNat ∨ 128 ≤ v.toNat ∧ v.toInt = v.toNat - 256 := by
  rw [BitVec.toInt_eq_toNat_cond]
  split <;> omega

/-- The bit expression of V: the operands have one sign and the result has the other (R222). -/
theorem msb_overflowByte (a m r : Byte) :
    ((a ^^^ r) &&& (m ^^^ r)).msb =
      decide ((128 ≤ a.toNat ↔ 128 ≤ m.toNat) ∧ ¬(128 ≤ r.toNat ↔ 128 ≤ a.toNat)) := by
  rw [BitVec.msb_and, BitVec.msb_xor, BitVec.msb_xor, BitVec.msb_eq_decide, BitVec.msb_eq_decide, BitVec.msb_eq_decide]
  by_cases ha : 128 ≤ a.toNat <;> by_cases hm : 128 ≤ m.toNat <;> by_cases hr : 128 ≤ r.toNat <;> simp [ha, hm, hr]

/-- The sign-overflow rule of R222, for a result that is the wrapped sum: operands of one sign leave the range exactly when
the wrap changes the sign, operands of different signs never do. -/
theorem msb_overflowByte_of_sum {a m r : Byte} {c : Bool} (hr : r.toNat = (a.toNat + m.toNat + c.toNat) % 256) :
    ((a ^^^ r) &&& (m ^^^ r)).msb =
      decide (a.toInt + m.toInt + c.toNat < -128 ∨ 127 < a.toInt + m.toInt + c.toNat) := by
  have hc : c.toNat ≤ 1 := c.toNat_le
  rw [msb_overflowByte, decide_eq_decide]
  have ha := toInt_byte_cases a
  have hm := toInt_byte_cases m
  by_cases hsigns : 128 ≤ a.toNat ↔ 128 ≤ m.toNat
  · rw [and_iff_right hsigns]
    omega
  · have hin : -128 ≤ a.toInt + m.toInt + c.toNat ∧ a.toInt + m.toInt + c.toNat ≤ 127 := by omega
    simp only [hsigns, false_and, false_iff, not_or, not_lt]
    exact hin

section
variable {a m p r q : Byte} {c : Bool} (h : (r, q) = addBinary a m c p)
include h

theorem toNat_of_addBinary : r.toNat = (a.toNat + m.toNat + c.toNat) % 256 := by
  rw [show r = _ from congrArg Prod.fst h]
  exact BitVec.toNat_ofNat _ _

/-- The flags of a binary addition, each from the byte it gives and the unwrapped sum (R222). -/
theorem getFlag_of_addBinary (g : Flag) :
    getFlag g q =
      if g = .n then r.msb else if g = .z then r == 0 else if g = .v then ((a ^^^ r) &&& (m ^^^ r)).msb else
      if g = .c then decide (255 < a.toNat + m.toNat + c.toNat) else getFlag g p := by
  obtain ⟨rfl, rfl⟩ := Prod.mk.inj h
  simp only [getFlag_setZN, getFlag_putFlag, gt_iff_lt]

end

/-- Settles O33, flag by flag from `getFlag_of_addBinary`, and V as signed overflow from `msb_overflowByte_of_sum`. -/
theorem addBinary : Obligations.AddBinary := by
  intro a m p r q c h
  have hr := toNat_of_addBinary h
  have hflag := getFlag_of_addBinary h
  have hv : getFlag .v q = ((a ^^^ r) &&& (m ^^^ r)).msb := hflag .v
  refine ⟨hr, hflag .c, ?overflow, ?overflowBit, ?zero, ?negative, ?others⟩
  case overflow => exact hv.trans (msb_overflowByte_of_sum hr)
  case overflowBit => exact hv.trans (BitVec.msb_eq_getLsbD_last _)
  case zero => exact (hflag .z).trans (beq_eq_decide _ _)
  case negative => exact (hflag .n).trans (BitVec.msb_eq_getLsbD_last _)
  case others =>
    intro g hg
    rw [show q = _ from congrArg Prod.snd h]
    exact SameBut.addBinary a m c p g (by revert g; decide)

end Sys2Proof.Proofs.Arithmetic
end

section
/-! PROOF. The obligation of 60_exceptions.md: what `raiseIRQ` and `raiseNMI` do to the latch (R371, R372). -/

namespace Sys2Proof.Proofs.Exceptions
open Sys2Proof.Machine

section
variable {v w : Intr} {s : State}

/-- Latching the request that is pending already changes nothing: requests are not counted. -/
theorem setIntr_of_intr_eq (h : s.intr = v) : s.setIntr v = s := by
  subst h
  rfl

/-- The latch is one field: a later request replaces the earlier one. -/
theorem setIntr_setIntr : (s.setIntr v).setIntr w = s.setIntr w := rfl

theorem raiseIrq_of_nmi (h : s.intr = .nmi) : s.raiseIrq = s := if_pos h

theorem raiseIrq_of_ne_nmi (h : s.intr ≠ .nmi) : s.raiseIrq = s.setIntr .irq := if_neg h

/-- An NMI overrides whatever an IRQ left in the latch (R384). -/
theorem raiseNmi_raiseIrq : s.raiseIrq.raiseNmi = s.raiseNmi := by
  by_cases h : s.intr = .nmi
  · rw [raiseIrq_of_nmi h]
  · rw [raiseIrq_of_ne_nmi h]
    exact setIntr_setIntr

end

/-- Settles O10: an IRQ splits on whether an NMI is pending, an NMI on nothing. -/
theorem requestsAreLatched : Obligations.RequestsAreLatched := by
  intro s
  refine ⟨raiseIrq_of_ne_nmi, raiseIrq_of_nmi, ?irqAgain, rfl, setIntr_of_intr_eq, raiseNmi_raiseIrq, ?irqAfterNmi⟩
  case irqAgain =>
    intro h
    have hne : s.intr ≠ .nmi := by rw [h]; decide
    rw [raiseIrq_of_ne_nmi hne, setIntr_of_intr_eq h]
  case irqAfterNmi => exact raiseIrq_of_nmi (State.setIntr_intr .nmi s)

end Sys2Proof.Proofs.Exceptions
end

section
/-! PROOF. The obligations of 30_encoding.md: the decoder and the encoder agree, every opcode byte decodes, and the length
follows from the mode (R110 to R124). -/

namespace Sys2Proof.Proofs.Encoding
open Sys2Proof.Machine

/-! ## The slots of the opcode table -/

/-- A slot of the opcode table gives a well-formed instruction, whatever the operand bytes; the instruction has the slot's
entry, and its encoding is the opcode and as many of the operand bytes as its length says (R110, R111). -/
def SlotRoundTrips (op : Byte) (b : Builder) : Prop :=
  ∀ l h, (b l h).wellFormed = true ∧ encode (b l h) = [op, l, h].take (b 0 0).entry.length ∧
    (b l h).entry = (b 0 0).entry

theorem offsetFits_offsetOfByte (l : Byte) : offsetFits (offsetOfByte l) = true := by
  have hlo : -128 ≤ l.toInt := BitVec.le_toInt l
  have hhi : l.toInt < 128 := BitVec.toInt_lt
  exact Bool.and_eq_true_iff.2 ⟨decide_eq_true hlo, decide_eq_true (Int.le_of_lt_add_one hhi)⟩

theorem byteOfOffset_offsetOfByte (l : Byte) : byteOfOffset (offsetOfByte l) = l := BitVec.ofInt_toInt

namespace SlotRoundTrips

variable {op : Byte}

/-- A slot whose instruction holds its operand byte, if it has one, as it stands. -/
theorem bytes {b : Builder} (hw : ∀ l h, (b l h).wellFormed = true := by intros; rfl)
    (he : ∀ l h, encode (b l h) = [op, l, h].take (b 0 0).entry.length := by intros; rfl)
    (hf : ∀ l h, (b l h).entry = (b 0 0).entry := by intros; rfl) : SlotRoundTrips op b :=
  fun l h => ⟨hw l h, he l h, hf l h⟩

/-- A slot whose instruction has format F3: the address is split into the bytes it was made of (R86, R111). -/
theorem word {f : Addr → Instr} (hw : ∀ a, (f a).wellFormed = true := by intros; rfl)
    (he : ∀ a, encode (f a) = bytesF3 op a := by intros; rfl) (hl : ∀ a, (f a).entry.length = 3 := by intros; rfl)
    (hf : ∀ a b, (f a).entry = (f b).entry := by intros; rfl) : SlotRoundTrips op (fun l h => f (mkAddr h l)) := by
  intro l h
  refine ⟨hw _, ?_, hf _ _⟩
  rw [he, bytesF3, loByte_mkAddr, hiByte_mkAddr, hl]
  rfl

/-- A slot whose instruction is a branch: its byte is read as a signed number and back (R112). -/
theorem branch {f : Int → Instr} (hw : ∀ o, (f o).wellFormed = offsetFits o := by intros; rfl)
    (he : ∀ o, encode (f o) = [op, byteOfOffset o] := by intros; rfl)
    (hl : ∀ o, (f o).entry.length = 2 := by intros; rfl) (hf : ∀ o o', (f o).entry = (f o').entry := by intros; rfl) :
    SlotRoundTrips op (fun l _ => f (offsetOfByte l)) := by
  intro l h
  refine ⟨(hw _).trans (offsetFits_offsetOfByte l), ?_, hf _ _⟩
  rw [he, byteOfOffset_offsetOfByte, hl]
  rfl

end SlotRoundTrips

/-- Every slot of a row of the opcode table round-trips. -/
def RowRoundTrips (r : Fin 16) : Prop := ∀ c : Fin 16, SlotRoundTrips (BitVec.ofNat 8 (16 * r + c)) ((opTable.get r).get c)

/-- The odd rows, which begin with a branch. -/
def oddRows : List (Fin 16) := [1, 3, 5, 7, 9, 11, 13, 15]

/-- The even rows but for JSR's. -/
def evenRows : List (Fin 16) := [0, 4, 6, 8, 10, 12, 14]

theorem rowRoundTrips_odd {r : Fin 16} (hr : r ∈ oddRows) : RowRoundTrips r := by
  intro c
  unfold oddRows at hr
  fin_cases hr
  all_goals
    fin_cases c
    exacts [.branch, .bytes, .bytes, .bytes, .bytes, .bytes, .bytes, .bytes,
      .bytes, .word, .bytes, .word, .word, .word, .word, .word]

theorem rowRoundTrips_even {r : Fin 16} (hr : r ∈ evenRows) : RowRoundTrips r := by
  intro c
  unfold evenRows at hr
  fin_cases hr
  all_goals
    fin_cases c
    exacts [.bytes, .bytes, .bytes, .bytes, .bytes, .bytes, .bytes, .bytes,
      .bytes, .bytes, .bytes, .bytes, .word, .word, .word, .word]

/-- The row of JSR, whose operand is an address. -/
theorem rowRoundTrips_two : RowRoundTrips 2 := by
  intro c
  fin_cases c
  exacts [.word, .bytes, .bytes, .bytes, .bytes, .bytes, .bytes, .bytes,
    .bytes, .bytes, .bytes, .bytes, .word, .word, .word, .word]

theorem rows_cases : ∀ r : Fin 16, r ∈ oddRows ∨ r ∈ evenRows ∨ r = 2 := by decide

/-- The opcode table row by row, each slot by the format of its instruction. -/
theorem rowRoundTrips (r : Fin 16) : RowRoundTrips r := by
  rcases rows_cases r with hr | hr | rfl
  · exact rowRoundTrips_odd hr
  · exact rowRoundTrips_even hr
  · exact rowRoundTrips_two

theorem slotRoundTrips (op : Byte) : SlotRoundTrips op (instrOf op) := by
  have hop : BitVec.ofNat 8 (16 * (op.toNat / 16) + op.toNat % 16) = op := by
    rw [Nat.div_add_mod]
    exact (BitVec.ofNat_toNat 8 op).trans (BitVec.setWidth_eq op)
  have hrow : op.toNat / 16 < 16 := by have := op.isLt; omega
  have h := rowRoundTrips ⟨op.toNat / 16, hrow⟩ ⟨op.toNat % 16, Nat.mod_lt _ (by decide)⟩
  rw [hop] at h
  exact h

theorem entry_instrOf (op l h : Byte) : (instrOf op l h).entry = entryOf op := (slotRoundTrips op l h).2.2

theorem wellFormed_instrOf (op l h : Byte) : (instrOf op l h).wellFormed = true := (slotRoundTrips op l h).1

theorem encode_instrOf (op l h : Byte) : encode (instrOf op l h) = [op, l, h].take (entryOf op).length :=
  (slotRoundTrips op l h).2.1

/-! ## Lengths -/

/-- The length that a mode gives to every instruction but BRK (R111). -/
def modeLength : Mode → Nat
  | .imp | .acc => 1
  | .imm | .zp | .zpx | .zpy | .izx | .izy | .rel => 2
  | .abs | .abx | .aby | .ind => 3

theorem entry_length (i : Instr) : i.entry.length = if i.mnemonic = .brk then 2 else modeLength i.entry.mode := by
  cases i <;> rfl

theorem length_encode (i : Instr) : (encode i).length = i.entry.length := by
  cases i <;> rfl

theorem entryOf_length_cases (op : Byte) :
    (entryOf op).length = 1 ∨ (entryOf op).length = 2 ∨ (entryOf op).length = 3 := by
  have h := entry_length (instrOf op 0 0)
  rw [entry_instrOf] at h
  rw [h]
  split
  · exact .inr (.inl rfl)
  · cases (entryOf op).mode <;> simp [modeLength]

/-- Settles O5, from the length as a function of mnemonic and mode. -/
theorem lengthFollowsMode : Obligations.LengthFollowsMode := by
  intro i
  refine ⟨length_encode i, fun hbrk => ?brk, fun hbrk => ?other⟩
  case brk => rw [entry_length, if_pos hbrk]
  case other =>
    rw [entry_length, if_neg hbrk]
    rfl

/-! ## Decoding -/

theorem decode_of_length_one {op : Byte} (h : (entryOf op).length = 1) (rest : List Byte) :
    decode (op :: rest) = .ok (instrOf op 0 0, rest) := by
  simp only [decode, h]

theorem decode_of_length_two {op : Byte} (h : (entryOf op).length = 2) (l : Byte) (rest : List Byte) :
    decode (op :: l :: rest) = .ok (instrOf op l 0, rest) := by
  simp only [decode, h]

theorem decode_of_length_three {op : Byte} (h : (entryOf op).length = 3) (l k : Byte) (rest : List Byte) :
    decode (op :: l :: k :: rest) = .ok (instrOf op l k, rest) := by
  simp only [decode, h]

/-- Everything the decoder accepts: a slot's instruction with the operand bytes that its length asks for. -/
theorem decode_eq_ok {bytes rest : List Byte} {i : Instr} (h : decode bytes = .ok (i, rest)) :
    ∃ op l k, i = instrOf op l k ∧ bytes = [op, l, k].take (entryOf op).length ++ rest := by
  unfold decode at h
  split at h
  · cases h
  · rename_i op tail
    split at h <;> cases h
    · exact ⟨op, 0, 0, rfl, by simp [*]⟩
    · exact ⟨op, _, 0, rfl, by simp [*]⟩
    · exact ⟨op, _, _, rfl, by simp [*]⟩

/-- Settles O3: what the decoder accepts comes from a slot of the opcode table, and every slot is read back. -/
theorem encodeOfDecode : Obligations.EncodeOfDecode := by
  intro bytes rest i h
  obtain ⟨op, l, k, rfl, rfl⟩ := decode_eq_ok h
  exact ⟨wellFormed_instrOf op l k, by rw [encode_instrOf]⟩

/-- Settles O4, by the slot's length. -/
theorem everyOpcodeByteDecodes : Obligations.EveryOpcodeByteDecodes := by
  intro op l h rest
  have hlen (j k : Byte) : (instrOf op j k).entry.length = (entryOf op).length := by rw [entry_instrOf]
  rcases entryOf_length_cases op with h1 | h2 | h3
  · exact ⟨_, wellFormed_instrOf _ _ _, by rw [decode_of_length_one h1, hlen, h1]; rfl⟩
  · exact ⟨_, wellFormed_instrOf _ _ _, by rw [decode_of_length_two h2, hlen, h2]; rfl⟩
  · exact ⟨_, wellFormed_instrOf _ _ _, by rw [decode_of_length_three h3, hlen, h3]; rfl⟩

section
open Laws.DecodesBack

/-- Settles O2, instruction by instruction from the family `DecodesBack`, in the order of `Instr`'s constructors. -/
theorem decodeOfEncode : Obligations.DecodeOfEncode := by
  intro i rest h
  have hback : Statement i := by
    cases i
    exacts [brk _, oraIndX _, kil _, sloIndX _, nopZp _ _, oraZp _, aslZp _, sloZp _, php, oraImm _, aslAcc, ancImm0B _,
      nopAbs _, oraAbs _, aslAbs _, sloAbs _, bpl _, oraIndY _, sloIndY _, nopZpX _ _, oraZpX _, aslZpX _, sloZpX _, clc,
      oraAbsY _, nopImp _, sloAbsY _, nopAbsX _ _, oraAbsX _, aslAbsX _, sloAbsX _, jsrAbs _, andIndX _, rlaIndX _,
      bitZp _, andZp _, rolZp _, rlaZp _, plp, andImm _, rolAcc, ancImm2B _, bitAbs _, andAbs _, rolAbs _, rlaAbs _,
      bmi _, andIndY _, rlaIndY _, andZpX _, rolZpX _, rlaZpX _, sec, andAbsY _, rlaAbsY _, andAbsX _, rolAbsX _,
      rlaAbsX _, rti, eorIndX _, sreIndX _, eorZp _, lsrZp _, sreZp _, pha, eorImm _, lsrAcc, alrImm _, jmpAbs _,
      eorAbs _, lsrAbs _, sreAbs _, bvc _, eorIndY _, sreIndY _, eorZpX _, lsrZpX _, sreZpX _, cli, eorAbsY _, sreAbsY _,
      eorAbsX _, lsrAbsX _, sreAbsX _, rts, adcIndX _, rraIndX _, adcZp _, rorZp _, rraZp _, pla, adcImm _, rorAcc,
      arrImm _, jmpInd _, adcAbs _, rorAbs _, rraAbs _, bvs _, adcIndY _, rraIndY _, adcZpX _, rorZpX _, rraZpX _, sei,
      adcAbsY _, rraAbsY _, adcAbsX _, rorAbsX _, rraAbsX _, nopImm _ _, staIndX _, saxIndX _, styZp _, staZp _, stxZp _,
      saxZp _, dey, txa, xaaImm _, styAbs _, staAbs _, stxAbs _, saxAbs _, bcc _, staIndY _, ahxIndY _, styZpX _,
      staZpX _, stxZpY _, saxZpY _, tya, staAbsY _, txs, tasAbsY _, shyAbsX _, staAbsX _, shxAbsY _, ahxAbsY _, ldyImm _,
      ldaIndX _, ldxImm _, laxIndX _, ldyZp _, ldaZp _, ldxZp _, laxZp _, tay, ldaImm _, tax, laxImm _, ldyAbs _,
      ldaAbs _, ldxAbs _, laxAbs _, bcs _, ldaIndY _, laxIndY _, ldyZpX _, ldaZpX _, ldxZpY _, laxZpY _, clv, ldaAbsY _,
      tsx, lasAbsY _, ldyAbsX _, ldaAbsX _, ldxAbsY _, laxAbsY _, cpyImm _, cmpIndX _, dcpIndX _, cpyZp _, cmpZp _,
      decZp _, dcpZp _, iny, cmpImm _, dex, axsImm _, cpyAbs _, cmpAbs _, decAbs _, dcpAbs _, bne _, cmpIndY _,
      dcpIndY _, cmpZpX _, decZpX _, dcpZpX _, cld, cmpAbsY _, dcpAbsY _, cmpAbsX _, decAbsX _, dcpAbsX _, cpxImm _,
      sbcIndX _, iscIndX _, cpxZp _, sbcZp _, incZp _, iscZp _, inx, sbcImm _, nop, sbcImmEB _, cpxAbs _, sbcAbs _,
      incAbs _, iscAbs _, beq _, sbcIndY _, iscIndY _, sbcZpX _, incZpX _, iscZpX _, sed, sbcAbsY _, iscAbsY _,
      sbcAbsX _, incAbsX _, iscAbsX _]
  exact hback h rest

end

/-- Settles O1: every word of the list is decoded by the opcode table. -/
theorem specWordsDecode : Obligations.SpecWordsDecode := by
  refine ⟨?_, ?_, ?_, ?_, ?_, ?_, ?_, ?_, ?_, ?_, ?_, ?_, ?_, ?_, ?_, ?_, ?_, ?_, ?_, ?_, ?_⟩
  all_goals rfl

end Sys2Proof.Proofs.Encoding
end

section
/-! SUPPORT. What each mnemonic does with its operand, and in which of ten forms an instruction runs it: said once, so that a
proof about a mnemonic needs no split over the addressing forms (spec files 41 to 46). -/

namespace Sys2Proof.Proofs.Meanings
open Sys2Proof.Machine

/-! ## The meaning of a mnemonic -/

/-- What an instruction does, apart from where its operand is. -/
inductive Meaning where
  /-- changes registers only -/
  | registers (f : State → State)
  /-- uses the stack, through no operand -/
  | stack (h : State → Res Unit)
  /-- reads one operand byte -/
  | read (f : Byte → State → State)
  /-- writes one byte -/
  | store (v : Addr → State → Byte)
  /-- reads, modifies and writes back -/
  | modify (f : Byte → Byte → Byte × Byte)
  /-- modifies, then goes on with the byte written -/
  | combine (f : Byte → Byte → Byte × Byte) (g : Byte → State → State)
  /-- uses the effective address itself -/
  | address (h : Addr → State → Res Unit)
  /-- branches on a flag -/
  | branch

/-- What each mnemonic does. -/
def mnemonicMeaning : Mnemonic → Meaning
  | .adc => .read adcA
  | .ahx => .store ahxByte
  | .alr => .read alrA
  | .anc => .read ancA
  | .and => .read andA
  | .arr => .read arrA
  | .asl => .modify aslByte
  | .axs => .read axsX
  | .bcc | .bcs | .beq | .bmi | .bne | .bpl | .bvc | .bvs => .branch
  | .bit => .read bitA
  | .brk => .stack (interruptEntry irqVector true)
  | .clc => .registers (setFlag .c false)
  | .cld => .registers (setFlag .d false)
  | .cli => .registers (setFlag .i false)
  | .clv => .registers (setFlag .v false)
  | .cmp => .read cmpA
  | .cpx => .read cmpX
  | .cpy => .read cmpY
  | .dcp => .combine decByte cmpA
  | .dec => .modify decByte
  | .dex => .registers dexReg
  | .dey => .registers deyReg
  | .eor => .read eorA
  | .inc => .modify incByte
  | .inx => .registers inxReg
  | .iny => .registers inyReg
  | .isc => .combine incByte sbcA
  | .jmp => .address jumpTo
  | .jsr => .address callTo
  | .kil => .registers (fun s => s.setHalted true)
  | .las => .read loadLas
  | .lax => .read loadAX
  | .lda => .read loadA
  | .ldx => .read loadX
  | .ldy => .read loadY
  | .lsr => .modify lsrByte
  | .nop => .read ignore
  | .ora => .read orA
  | .pha => .stack pushA
  | .php => .stack pushP
  | .pla => .stack pullA
  | .plp => .stack pullP
  | .rla => .combine rolByte andA
  | .rol => .modify rolByte
  | .ror => .modify rorByte
  | .rra => .combine rorByte adcA
  | .rti => .stack interruptReturn
  | .rts => .stack returnFromCall
  | .sax => .store (fun _ s => s.a &&& s.x)
  | .sbc => .read sbcA
  | .sec => .registers (setFlag .c true)
  | .sed => .registers (setFlag .d true)
  | .sei => .registers (setFlag .i true)
  | .shx => .store shxByte
  | .shy => .store shyByte
  | .slo => .combine aslByte orA
  | .sre => .combine lsrByte eorA
  | .sta => .store (fun _ s => s.a)
  | .stx => .store (fun _ s => s.x)
  | .sty => .store (fun _ s => s.y)
  | .tas => .address storeTas
  | .tax => .registers taxReg
  | .tay => .registers tayReg
  | .tsx => .registers tsxReg
  | .txa => .registers txaReg
  | .txs => .registers txsReg
  | .tya => .registers tyaReg
  | .xaa => .read xaaA

/-- What an instruction does: what its mnemonic does, but for LAX immediate (R341) and the NOPs without an operand. -/
def meaning (i : Instr) : Meaning :=
  if i.mnemonic = .lax ∧ i.entry.mode = .imm then .read laxImmAX
  else if i.mnemonic = .nop ∧ i.entry.mode = .imp then .registers fun s => s
  else mnemonicMeaning i.mnemonic

/-- The forms in which an instruction runs its meaning, with the cycles and the sensitivity flag of its entry. -/
inductive Runs (i : Instr) : Meaning → (State → Result) → Prop where
  | registers (f : State → State) : i.entry.length = 1 → Runs i (.registers f) (implied i.entry.base f)
  | stack (h : State → Res Unit) : Runs i (.stack h) (plain i.entry.base i.entry.length h)
  | immediate (f : Byte → State → State) {op d : Byte} : i.entry.mode = .imm → i.entry.base = 2 → encode i = [op, d] →
      Runs i (.read f) (readImm d f)
  | read (f : Byte → State → State) {m : MemOperand} : i.memOperand = some m →
      Runs i (.read f) (readMem i.entry.base i.entry.xb m f)
  | store (v : Addr → State → Byte) {m : MemOperand} : i.memOperand = some m → i.entry.xb = false →
      Runs i (.store v) (storeMem i.entry.base m v)
  | accumulator (f : Byte → Byte → Byte × Byte) : i.entry.mode = .acc → i.entry.base = 2 →
      Runs i (.modify f) (rmwAcc f)
  | modify (f : Byte → Byte → Byte × Byte) {m : MemOperand} : i.memOperand = some m → i.entry.xb = false →
      Runs i (.modify f) (rmwMem i.entry.base m f)
  | combine (f : Byte → Byte → Byte × Byte) (g : Byte → State → State) {m : MemOperand} : i.memOperand = some m →
      i.entry.xb = false → Runs i (.combine f g) (rmwThen i.entry.base m f g)
  | address (h : Addr → State → Res Unit) {m : MemOperand} : i.memOperand = some m → i.entry.xb = false →
      Runs i (.address h) (addressed i.entry.base false m h)
  | branch (o : Int) {op : Byte} : i.entry.mode = .rel → encode i = [op, byteOfOffset o] →
      i.wellFormed = offsetFits o → Runs i .branch (branch i.mnemonic o)

/-! ## Operands of two bytes -/

section
variable {i : Instr} {op : Byte} {a : Addr} (he : encode i = bytesF3 op a)
include he

theorem memOperand_abs (hm : i.entry.mode = .abs) : i.memOperand = some (.abs a) := by
  rw [Instr.memOperand, hm, he]
  exact congrArg (some ∘ MemOperand.abs) (mkAddr_hiByte_loByte a)

theorem memOperand_abx (hm : i.entry.mode = .abx) : i.memOperand = some (.abx a) := by
  rw [Instr.memOperand, hm, he]
  exact congrArg (some ∘ MemOperand.abx) (mkAddr_hiByte_loByte a)

theorem memOperand_aby (hm : i.entry.mode = .aby) : i.memOperand = some (.aby a) := by
  rw [Instr.memOperand, hm, he]
  exact congrArg (some ∘ MemOperand.aby) (mkAddr_hiByte_loByte a)

theorem memOperand_ind (hm : i.entry.mode = .ind) : i.memOperand = some (.ind a) := by
  rw [Instr.memOperand, hm, he]
  exact congrArg (some ∘ MemOperand.ind) (mkAddr_hiByte_loByte a)

end

/-! ## Every instruction runs its meaning -/

/-- Every instruction runs its meaning in one of the ten forms: by its constructor, grouped by form and operand. -/
theorem runs_meaning (i : Instr) : Runs i (meaning i) (exec i) := by
  cases i
  case brk | php | plp | rti | pha | rts | pla =>
    exact .stack _
  case oraIndX | nopZp | oraZp | oraIndY | nopZpX | oraZpX | andIndX | bitZp | andZp | andIndY | andZpX | eorIndX |
      eorZp | eorIndY | eorZpX | adcIndX | adcZp | adcIndY | adcZpX | ldaIndX | laxIndX | ldyZp | ldaZp | ldxZp |
      laxZp | ldaIndY | laxIndY | ldyZpX | ldaZpX | ldxZpY | laxZpY | cmpIndX | cpyZp | cmpZp | cmpIndY | cmpZpX |
      sbcIndX | cpxZp | sbcZp | sbcIndY | sbcZpX =>
    exact .read _ rfl
  case kil | clc | nopImp | sec | cli | sei | dey | txa | tya | txs | tay | tax | clv | tsx | iny | dex | cld | inx |
      nop | sed =>
    exact .registers _ rfl
  case sloIndX | sloZp | sloIndY | sloZpX | rlaIndX | rlaZp | rlaIndY | rlaZpX | sreIndX | sreZp | sreIndY | sreZpX |
      rraIndX | rraZp | rraIndY | rraZpX | dcpIndX | dcpZp | dcpIndY | dcpZpX | iscIndX | iscZp | iscIndY | iscZpX =>
    exact .combine _ _ rfl rfl
  case aslZp | aslZpX | rolZp | rolZpX | lsrZp | lsrZpX | rorZp | rorZpX | decZp | decZpX | incZp | incZpX =>
    exact .modify _ rfl rfl
  case oraImm | ancImm0B | andImm | ancImm2B | eorImm | alrImm | adcImm | arrImm | nopImm | xaaImm | ldyImm | ldxImm |
      ldaImm | laxImm | cpyImm | cmpImm | axsImm | cpxImm | sbcImm | sbcImmEB =>
    exact .immediate _ rfl rfl rfl
  case aslAcc | rolAcc | lsrAcc | rorAcc =>
    exact .accumulator _ rfl rfl
  case nopAbs | oraAbs | bitAbs | andAbs | eorAbs | adcAbs | ldyAbs | ldaAbs | ldxAbs | laxAbs | cpyAbs | cmpAbs |
      cpxAbs | sbcAbs =>
    exact .read _ (memOperand_abs rfl rfl)
  case aslAbs | rolAbs | lsrAbs | rorAbs | decAbs | incAbs =>
    exact .modify _ (memOperand_abs rfl rfl) rfl
  case sloAbs | rlaAbs | sreAbs | rraAbs | dcpAbs | iscAbs =>
    exact .combine _ _ (memOperand_abs rfl rfl) rfl
  case bpl | bmi | bvc | bvs | bcc | bcs | bne | beq =>
    exact .branch _ rfl rfl rfl
  case oraAbsY | andAbsY | eorAbsY | adcAbsY | ldaAbsY | lasAbsY | ldxAbsY | laxAbsY | cmpAbsY | sbcAbsY =>
    exact .read _ (memOperand_aby rfl rfl)
  case sloAbsY | rlaAbsY | sreAbsY | rraAbsY | dcpAbsY | iscAbsY =>
    exact .combine _ _ (memOperand_aby rfl rfl) rfl
  case nopAbsX | oraAbsX | andAbsX | eorAbsX | adcAbsX | ldyAbsX | ldaAbsX | cmpAbsX | sbcAbsX =>
    exact .read _ (memOperand_abx rfl rfl)
  case aslAbsX | rolAbsX | lsrAbsX | rorAbsX | decAbsX | incAbsX =>
    exact .modify _ (memOperand_abx rfl rfl) rfl
  case sloAbsX | rlaAbsX | sreAbsX | rraAbsX | dcpAbsX | iscAbsX =>
    exact .combine _ _ (memOperand_abx rfl rfl) rfl
  case jsrAbs | jmpAbs =>
    exact .address _ (memOperand_abs rfl rfl) rfl
  case jmpInd =>
    exact .address _ (memOperand_ind rfl rfl) rfl
  case staIndX | saxIndX | styZp | staZp | stxZp | saxZp | staIndY | ahxIndY | styZpX | staZpX | stxZpY | saxZpY =>
    exact .store _ rfl rfl
  case styAbs | staAbs | stxAbs | saxAbs =>
    exact .store _ (memOperand_abs rfl rfl) rfl
  case staAbsY | shxAbsY | ahxAbsY =>
    exact .store _ (memOperand_aby rfl rfl) rfl
  case tasAbsY =>
    exact .address _ (memOperand_aby rfl rfl) rfl
  case shyAbsX | staAbsX =>
    exact .store _ (memOperand_abx rfl rfl) rfl

end Sys2Proof.Proofs.Meanings
end

section
/-! SUPPORT. What an instruction answers once its bus accesses are known to succeed, for each form in which its meaning runs
(spec 40_step_and_addressing.md R141 to R165). -/

namespace Sys2Proof.Proofs.Results
open Sys2Proof.Machine Sys2Proof.Proofs.Meanings

variable {i : Instr} {s t u : State} {ea : Addr} {v : Byte} {xa : Bool}

/-! ## States -/

/-- Bus reads change the devices only. -/
theorem exists_devices_of_readsTo (h : s.ReadsTo t) : ∃ ds, t = s.setDevices ds := ⟨t.devices, h.1⟩

/-- A register update that neither reads nor writes PC and the cycle counter. -/
def Unclocked (f : State → State) : Prop :=
  ∀ s pc c, f { s with pc := pc, cycles := c } = { f s with pc := pc, cycles := c }

/-- Advancing before such an update or after it is the same. -/
theorem Unclocked.advance {f : State → State} (hf : Unclocked f) (base len : Nat) (s : State) :
    f (s.advance base len) = (f s).advance base len := by
  have hstay : f s = { f s with pc := s.pc, cycles := s.cycles } := hf s s.pc s.cycles
  rw [show s.advance base len = { s with pc := s.pc + BitVec.ofNat 16 len, cycles := s.cycles + base } from rfl, hf,
    hstay]
  rfl

theorem finish_eq (i : Instr) (xa : Bool) (t : State) :
    i.finish xa t = (t.advance i.entry.base i.entry.length).addCycles (xa && i.entry.xb).toNat :=
  finish_eq_advance _ _ _ _

/-- Without a page cross, or in an instruction that is not sensitive to one, no cycle is added. -/
theorem finish_insensitive (xa : Bool) (h : i.entry.xb = false) (t : State) :
    i.finish xa t = t.advance i.entry.base i.entry.length := by
  rw [finish_eq, h, Bool.and_false]
  rfl

theorem finish_no_cross (i : Instr) (t : State) : i.finish false t = t.advance i.entry.base i.entry.length := finish_eq i false t

/-! ## Operands and their modes -/

/-- The mode of an operand. -/
def operandMode : MemOperand → Mode
  | .zp _ => .zp
  | .zpx _ => .zpx
  | .zpy _ => .zpy
  | .abs _ => .abs
  | .abx _ => .abx
  | .aby _ => .aby
  | .ind _ => .ind
  | .izx _ => .izx
  | .izy _ => .izy

theorem mode_of_memOperand {m : MemOperand} (h : i.memOperand = some m) : i.entry.mode = operandMode m := by
  unfold Instr.memOperand at h
  split at h <;> cases h <;> assumption

theorem length_of_memOperand {m : MemOperand} (h : i.memOperand = some m) : m.length = i.entry.length := by
  rw [← Encoding.length_encode]
  unfold Instr.memOperand at h
  split at h <;> cases h <;> simp [MemOperand.length, *]

theorem mode_ne_of_memOperand {m : MemOperand} (h : i.memOperand = some m) :
    i.entry.mode ≠ .acc ∧ i.entry.mode ≠ .imm ∧ i.entry.mode ≠ .rel ∧ i.entry.mode ≠ .imp := by
  rw [mode_of_memOperand h]
  cases m <;> simp [operandMode]

theorem readsTo_of_loadOperand (h : i.loadOperand s = some (.ok (v, xa) t)) : s.ReadsTo t := by
  rcases loadOperand_cases h with ⟨-, -, -, rfl⟩ | ⟨-, -, -, rfl⟩ | ⟨m, ea, w, -, hresolve, hread⟩
  · exact readsTo_refl _
  · exact readsTo_refl _
  · exact (readsTo_of_resolve hresolve).trans (readsTo_of_busRead hread)

theorem readsTo_of_addresses (h : i.Addresses s ea xa t) : s.ReadsTo t := by
  obtain ⟨m, -, hresolve⟩ := h
  exact readsTo_of_resolve hresolve

/-- Reads and then a write are a store. -/
theorem storesTo_of_busWrite (h : s.ReadsTo t) (hsl : t.stills = s.stills) (hw : busWrite ea v t = .ok () u) :
    s.StoresTo ea v u := by
  obtain ⟨hregs, hbytes⟩ := h
  have hslots : t.slots = s.slots := by rw [hregs]
  have hwritable : t.writableAt ea = s.writableAt ea := writableAt_congr hslots (shapes_of_stills hsl) ea
  refine ⟨?regs, fun a ha => (busWrite_other hw ha).trans (hbytes a), fun hwr hwf => ?same, fun hwr => ?dropped⟩
  case regs => rw [(busWrite_keeps hw).1, hregs]; rfl
  case same => exact busWrite_same hw (hwritable.trans hwr) ((memoryWf_congr hsl).trans hwf)
  case dropped =>
    rcases busWrite_cases hw with ⟨-, rfl, -⟩ | ⟨d, k, n, c, hs, hk, hlt, -⟩ | ⟨d, id, inner, hs, rfl⟩
    · exact hbytes ea
    · rw [← hwritable] at hwr
      simp [State.writableAt, hs, hk, hlt] at hwr
    · have hput := putDevice_view Device.still (slotDevice_some.1 hs).2
        (dev' := .foreign id true (Config.deviceWrite id inner ea v)) rfl
      exact (byteAt_congr (s := t) (t := t.putDevice d _) rfl hput ea).trans (hbytes ea)

theorem storesTo_of_stores (h : i.Stores s ea xa v u) : s.StoresTo ea v u := by
  obtain ⟨t, ⟨m, -, hresolve⟩, hw⟩ := h
  exact storesTo_of_busWrite (readsTo_of_resolve hresolve) (resolve_keeps hresolve) hw

theorem storesTo_of_modifies {r : Byte} (h : i.Modifies s ea xa v r u) : s.StoresTo ea r u := by
  obtain ⟨t, w, ⟨m, -, hresolve⟩, hread, hw⟩ := h
  exact storesTo_of_busWrite ((readsTo_of_resolve hresolve).trans (readsTo_of_busRead hread))
    ((busRead_keeps hread).2.trans (resolve_keeps hresolve)) hw

/-! ## The meaning of a mnemonic -/

theorem meaning_of_mnemonic {m : Mnemonic} (h : i.mnemonic = m) (hlax : m ≠ .lax := by decide)
    (hnop : m ≠ .nop := by decide) : meaning i = mnemonicMeaning m := by
  rw [meaning, h, if_neg fun e => hlax e.1, if_neg fun e => hnop e.1]

theorem meaning_of_lax (h : i.mnemonic = .lax) (hm : i.entry.mode ≠ .imm) : meaning i = .read loadAX := by
  rw [meaning, if_neg fun e => hm e.2, if_neg fun e => absurd e.1 (by rw [h]; decide), h]
  rfl

/-! ## Instructions without an operand -/

theorem runs_registers {f : State → State} (hM : meaning i = .registers f) :
    i.entry.length = 1 ∧ exec i = implied i.entry.base f := by
  have h := runs_meaning i
  rw [hM] at h
  generalize exec i = e at h ⊢
  cases h with
  | registers _ hlen => exact ⟨hlen, rfl⟩

theorem runs_stack {h : State → Res Unit} (hM : meaning i = .stack h) :
    exec i = plain i.entry.base i.entry.length h := by
  have hr := runs_meaning i
  rw [hM] at hr
  generalize exec i = e at hr ⊢
  cases hr with
  | stack _ => rfl

/-! ## Instructions that read one byte -/

section
variable {f : Byte → State → State}

theorem runs_read (hM : meaning i = .read f) :
    (∃ op d, i.entry.mode = .imm ∧ i.entry.base = 2 ∧ encode i = [op, d] ∧ exec i = readImm d f) ∨
    (∃ m, i.memOperand = some m ∧ exec i = readMem i.entry.base i.entry.xb m f) := by
  have h := runs_meaning i
  rw [hM] at h
  generalize exec i = e at h ⊢
  cases h with
  | immediate _ hmode hbase hbytes => exact .inl ⟨_, _, hmode, hbase, hbytes, rfl⟩
  | read _ hm => exact .inr ⟨_, hm, rfl⟩

/-- An instruction that reads answers its effect on the operand byte, in the state after the reads. -/
theorem exec_read (hM : meaning i = .read f) (h : i.loadOperand s = some (.ok (v, xa) t))
    (hf : ∀ v, Unclocked (f v) := by intros _ _ _ _; rfl) : exec i s = .next (i.finish xa (f v t)) := by
  rcases runs_read hM with ⟨op, d, hmode, hbase, hbytes, he⟩ | ⟨m, hm, he⟩ <;>
    rcases loadOperand_cases h with ⟨hacc, -, -, -⟩ | ⟨himm, ⟨op', hbytes'⟩, rfl, rfl⟩ | ⟨m', ea, w, hm', hresolve, hread⟩
  · rw [hmode] at hacc; cases hacc
  · obtain ⟨-, rfl⟩ : op = op' ∧ d = v := by rw [hbytes] at hbytes'; simpa using hbytes'
    have hlen : i.entry.length = 2 := by rw [← Encoding.length_encode, hbytes]; rfl
    rw [he, finish_no_cross, hbase, hlen, ← (hf d).advance]
    rfl
  · exact absurd hmode (mode_ne_of_memOperand hm').2.1
  · exact absurd hacc (mode_ne_of_memOperand hm).1
  · exact absurd himm (mode_ne_of_memOperand hm).2.1
  · obtain rfl : m = m' := Option.some.inj (hm.symm.trans hm')
    rw [he, readMem_next hresolve hread, finish_eq, ← (hf v).advance, length_of_memOperand hm, (busRead_keeps hread).1]
    rfl

end

/-! ## Instructions that write one byte -/

section
variable {f : Addr → State → Byte}

theorem runs_store (hM : meaning i = .store f) :
    ∃ m, i.memOperand = some m ∧ i.entry.xb = false ∧ exec i = storeMem i.entry.base m f := by
  have h := runs_meaning i
  rw [hM] at h
  generalize exec i = e at h ⊢
  cases h with
  | store _ hm hxb => exact ⟨_, hm, hxb, rfl⟩

/-- A store answers the state after its accesses, if the byte it writes is the one stored. -/
theorem exec_store (hM : meaning i = .store f) (h : i.Stores s ea xa v u)
    (hv : ∀ pc c ds, f ea { s with pc := pc, cycles := c, devices := ds } = v) : exec i s = .next (i.finish xa u) := by
  obtain ⟨m, hm, hxb, he⟩ := runs_store hM
  obtain ⟨t, ⟨m', hm', hresolve⟩, hw⟩ := h
  obtain rfl : m = m' := Option.some.inj (hm.symm.trans hm')
  obtain ⟨ds, rfl⟩ := exists_devices_of_readsTo (readsTo_of_resolve hresolve)
  rw [he, storeMem_next hresolve ((congrArg (fun b => busWrite ea b _) (hv _ _ _)).trans hw),
    finish_insensitive xa hxb, length_of_memOperand hm, (busWrite_keeps hw).1, Bool.and_false]
  rfl

end

/-! ## Instructions that modify a byte -/

section
variable {f : Byte → Byte → Byte × Byte}

theorem runs_modify (hM : meaning i = .modify f) :
    (i.entry.mode = .acc ∧ i.entry.base = 2 ∧ exec i = rmwAcc f) ∨
    (∃ m, i.memOperand = some m ∧ i.entry.xb = false ∧ exec i = rmwMem i.entry.base m f) := by
  have h := runs_meaning i
  rw [hM] at h
  generalize exec i = e at h ⊢
  cases h with
  | accumulator _ hmode hbase => exact .inl ⟨hmode, hbase, rfl⟩
  | modify _ hm hxb => exact .inr ⟨_, hm, hxb, rfl⟩

theorem exec_modify_acc (hM : meaning i = .modify f) (hmode : i.entry.mode = .acc) :
    exec i s = .next (i.finish false { s with a := (f s.a s.p).1, p := (f s.a s.p).2 }) := by
  rcases runs_modify hM with ⟨-, hbase, he⟩ | ⟨m, hm, -, -⟩
  · have hbrk : i.mnemonic ≠ .brk := fun e => by rw [meaning_of_mnemonic e] at hM; cases hM
    have hlen : i.entry.length = 1 := by rw [Encoding.entry_length, if_neg hbrk, hmode]; rfl
    rw [he, finish_no_cross, hbase, hlen]
    rfl
  · exact absurd hmode (mode_ne_of_memOperand hm).1

theorem exec_modify (hM : meaning i = .modify f) (h : i.Modifies s ea xa v (f v s.p).1 u) :
    exec i s = .next (i.finish xa { u with p := (f v s.p).2 }) := by
  obtain ⟨t, w, ⟨m', hm', hresolve⟩, hread, hw⟩ := h
  rcases runs_modify hM with ⟨hacc, -, -⟩ | ⟨m, hm, hxb, he⟩
  · exact absurd hacc (mode_ne_of_memOperand hm').1
  · obtain rfl : m = m' := Option.some.inj (hm.symm.trans hm')
    obtain ⟨ds, rfl⟩ := exists_devices_of_readsTo (readsTo_of_resolve hresolve)
    rw [he, rmwMem_next hresolve hread hw, finish_insensitive xa hxb, length_of_memOperand hm, (busWrite_keeps hw).1,
      (busRead_keeps hread).1, Bool.and_false]
    rfl

end

section
variable {f : Byte → Byte → Byte × Byte} {g : Byte → State → State}

theorem runs_combine (hM : meaning i = .combine f g) :
    ∃ m, i.memOperand = some m ∧ i.entry.xb = false ∧ exec i = rmwThen i.entry.base m f g := by
  have h := runs_meaning i
  rw [hM] at h
  generalize exec i = e at h ⊢
  cases h with
  | combine _ _ hm hxb => exact ⟨_, hm, hxb, rfl⟩

/-- A combination answers the effect of its second half, on the byte that its first half wrote and the flags it left. -/
theorem exec_combine {r q : Byte} (hM : meaning i = .combine f g) (hf : (r, q) = f v s.p) (h : i.Modifies s ea xa v r u)
    (hg : ∀ v, Unclocked (g v) := by intros _ _ _ _; rfl) :
    exec i s = .next (i.finish xa (g r { u with p := q })) := by
  obtain ⟨m, hm, hxb, he⟩ := runs_combine hM
  obtain ⟨t, w, ⟨m', hm', hresolve⟩, hread, hw⟩ := h
  obtain rfl : m = m' := Option.some.inj (hm.symm.trans hm')
  obtain ⟨ds, rfl⟩ := exists_devices_of_readsTo (readsTo_of_resolve hresolve)
  obtain ⟨rfl, rfl⟩ := Prod.mk.inj hf
  rw [he, rmwThen_next hresolve hread hw, finish_insensitive xa hxb, length_of_memOperand hm, ← (hg _).advance,
    (busWrite_keeps hw).1, (busRead_keeps hread).1, Bool.and_false]
  rfl

end

/-! ## Instructions that use the effective address itself -/

theorem runs_address {h : Addr → State → Res Unit} (hM : meaning i = .address h) :
    ∃ m, i.memOperand = some m ∧ i.entry.xb = false ∧ exec i = addressed i.entry.base false m h := by
  have hr := runs_meaning i
  rw [hM] at hr
  generalize exec i = e at hr ⊢
  cases hr with
  | address _ hm hxb => exact ⟨_, hm, hxb, rfl⟩

theorem exec_address {h : Addr → State → Res Unit} (hM : meaning i = .address h) (ha : i.Addresses s ea xa t)
    (hh : h ea (t.advance i.entry.base i.entry.length) = .ok () u) : exec i s = .next u := by
  obtain ⟨m, hm, -, he⟩ := runs_address hM
  obtain ⟨m', hm', hresolve⟩ := ha
  obtain rfl : m = m' := Option.some.inj (hm.symm.trans hm')
  rw [he, addressed_next hresolve (by rw [length_of_memOperand hm]; exact hh), Bool.and_false]
  rfl

end Sys2Proof.Proofs.Results
end

section
/-! PROOF. The obligations of 41_load_transfer_logical.md and of the instructions of 42_arithmetic.md and 43_shift_rmw.md:
what each instruction changes, and that it changes nothing else. -/

namespace Sys2Proof.Proofs.LoadTransferLogical
open Sys2Proof.Machine Sys2Proof.Proofs.Meanings Sys2Proof.Proofs.Results

/-- Settles O11: each load reads with its own effect on the registers. -/
theorem loadResults : Obligations.LoadResults := by
  intro i s t v xa h
  have hreads := readsTo_of_loadOperand h
  obtain ⟨ds, rfl⟩ := exists_devices_of_readsTo hreads
  exact ⟨hreads, fun hm => exec_read (f := loadA) (meaning_of_mnemonic hm) h,
    fun hm => exec_read (f := loadX) (meaning_of_mnemonic hm) h,
    fun hm => exec_read (f := loadY) (meaning_of_mnemonic hm) h,
    fun hm hmode => exec_read (meaning_of_lax hm hmode) h⟩

/-- Settles O12: each of the three reads with its own effect on A. -/
theorem logicResults : Obligations.LogicResults := by
  intro i s t v xa h
  have hreads := readsTo_of_loadOperand h
  obtain ⟨ds, rfl⟩ := exists_devices_of_readsTo hreads
  exact ⟨hreads, fun hm => exec_read (f := andA) (meaning_of_mnemonic hm) h,
    fun hm => exec_read (f := orA) (meaning_of_mnemonic hm) h,
    fun hm => exec_read (f := eorA) (meaning_of_mnemonic hm) h⟩

/-- Settles O13: BIT's flags by `getFlag_bitFlags`, the compares by their effect on P. -/
theorem bitAndCompareResults : Obligations.BitAndCompareResults := by
  intro i s t v xa h
  have hreads := readsTo_of_loadOperand h
  obtain ⟨ds, rfl⟩ := exists_devices_of_readsTo hreads
  refine ⟨hreads, fun hm => ⟨bitFlags s.a v s.p, exec_read (f := bitA) (meaning_of_mnemonic hm) h, ?zero, ?negative,
    ?overflow, ?others⟩, fun hm => exec_read (f := cmpA) (meaning_of_mnemonic hm) h,
    fun hm => exec_read (f := cmpX) (meaning_of_mnemonic hm) h,
    fun hm => exec_read (f := cmpY) (meaning_of_mnemonic hm) h⟩
  case zero => simp [beq_eq_decide]
  case negative => simp
  case overflow => simp
  case others => exact fun g hg => SameBut.bit s.a v s.p g (by revert g; decide)

/-- Settles O15: each store writes one byte, which does not depend on PC, the cycles or the devices. -/
theorem storeResults : Obligations.StoreResults := by
  intro i s u ea v xa hv h
  refine ⟨?_, storesTo_of_stores h⟩
  rcases hv with ⟨hm, rfl⟩ | ⟨hm, rfl⟩ | ⟨hm, rfl⟩ | ⟨hm, rfl⟩
  · exact exec_store (f := fun _ s => s.a) (meaning_of_mnemonic hm) h fun _ _ _ => rfl
  · exact exec_store (f := fun _ s => s.x) (meaning_of_mnemonic hm) h fun _ _ _ => rfl
  · exact exec_store (f := fun _ s => s.y) (meaning_of_mnemonic hm) h fun _ _ _ => rfl
  · exact exec_store (f := fun _ s => s.a &&& s.x) (meaning_of_mnemonic hm) h fun _ _ _ => rfl

/-- Settles O16: each of the ten runs its register function. -/
theorem registerResults : Obligations.RegisterResults := by
  rintro s t rfl
  exact ⟨rfl, rfl, rfl, rfl, rfl, rfl, rfl, rfl, rfl, rfl⟩

end Sys2Proof.Proofs.LoadTransferLogical
end

section
/-! PROOF. The obligations of ADC and SBC (42_arithmetic.md R220, R221, R227) and of the shifts, rotates, increments and
decrements (43_shift_rmw.md R240 to R246) as instructions. -/

namespace Sys2Proof.Proofs.ShiftRmw
open Sys2Proof.Machine Sys2Proof.Proofs.Meanings Sys2Proof.Proofs.Results

section
variable {a v p : Byte}

theorem addWithCarry_binary (h : getFlag .d p = false) : addWithCarry a v p = addBinary a v (getFlag .c p) p := by
  rw [addWithCarry, h]
  rfl

theorem addWithCarry_decimal (h : getFlag .d p = true) : addWithCarry a v p = addDecimal a v (getFlag .c p) p := by
  rw [addWithCarry, h]
  rfl

theorem subWithBorrow_binary (h : getFlag .d p = false) : subWithBorrow a v p = subBinary a v (getFlag .c p) p := by
  rw [subWithBorrow, h]
  rfl

theorem subWithBorrow_decimal (h : getFlag .d p = true) : subWithBorrow a v p = subDecimal a v (getFlag .c p) p := by
  rw [subWithBorrow, h]
  rfl

end

/-- Settles O14: ADC and SBC read with their effect on A and P, which is the sequence that D chooses. -/
theorem addSubtractResults : Obligations.AddSubtractResults := by
  intro i s t v xa h
  have hreads := readsTo_of_loadOperand h
  obtain ⟨ds, rfl⟩ := exists_devices_of_readsTo hreads
  refine ⟨hreads, ?_⟩
  rintro _ rfl
  have hadc (hm : i.mnemonic = .adc) := exec_read (f := adcA) (meaning_of_mnemonic hm) h
  have hsbc (hm : i.mnemonic = .sbc) := exec_read (f := sbcA) (meaning_of_mnemonic hm) h
  refine ⟨fun hm hd => ?_, fun hm hd => ?_, fun hm hd => ?_, fun hm hd => ?_⟩
  · rw [hadc hm, ← addWithCarry_binary hd]; rfl
  · rw [hadc hm, ← addWithCarry_decimal hd]; rfl
  · rw [hsbc hm, ← subWithBorrow_binary hd]; rfl
  · rw [hsbc hm, ← subWithBorrow_decimal hd]; rfl

/-- The six mnemonics modify with the function of their rule. -/
theorem meaning_of_modify {i : Instr} {f : Byte → Byte → Byte × Byte}
    (h : (i.mnemonic = .asl ∧ f = aslByte) ∨ (i.mnemonic = .lsr ∧ f = lsrByte) ∨ (i.mnemonic = .rol ∧ f = rolByte) ∨
      (i.mnemonic = .ror ∧ f = rorByte) ∨ (i.mnemonic = .inc ∧ f = incByte) ∨ (i.mnemonic = .dec ∧ f = decByte)) :
    meaning i = .modify f := by
  rcases h with ⟨hm, rfl⟩ | ⟨hm, rfl⟩ | ⟨hm, rfl⟩ | ⟨hm, rfl⟩ | ⟨hm, rfl⟩ | ⟨hm, rfl⟩ <;>
    exact meaning_of_mnemonic hm

/-- Settles O17: a modification of A or of one byte of memory. -/
theorem modifyResults : Obligations.ModifyResults := by
  intro i s f hf
  have hM := meaning_of_modify hf
  exact ⟨exec_modify_acc hM, fun ea xa v u h => ⟨exec_modify hM h, storesTo_of_modifies h⟩⟩

end Sys2Proof.Proofs.ShiftRmw
end

section
/-! PROOF. The obligations about the functions of the arithmetic and logic unit, by value: compare, subtraction, the decimal
sequences, and the shifts (41_load_transfer_logical.md R200, 42_arithmetic.md R223 to R225, 43_shift_rmw.md R241 to R246). -/

namespace Sys2Proof.Proofs.Alu
open Sys2Proof.Machine Sys2Proof.Proofs.Arithmetic

/-! ## Bytes by value -/

theorem toNat_onesComplement (m : Byte) : (m ^^^ 0xFF).toNat = 255 - m.toNat := by
  rw [show (0xFF : Byte) = BitVec.allOnes 8 from rfl, BitVec.xor_allOnes, BitVec.toNat_not]

theorem toInt_onesComplement (m : Byte) : (m ^^^ 0xFF).toInt = -1 - m.toInt := by
  have hm := toInt_byte_cases m
  have hc := toInt_byte_cases (m ^^^ 0xFF)
  rw [toNat_onesComplement] at hc
  omega

theorem msb_ofNat (n : Nat) : (BitVec.ofNat 8 n).msb = decide (n / 128 % 2 = 1) := by
  rw [BitVec.msb_eq_decide, BitVec.toNat_ofNat, decide_eq_decide]
  omega

/-! ## Compare -/

/-- Settles O32, flag by flag from `getFlag_compareFlags`. -/
theorem compareFlags : Obligations.CompareFlags := by
  intro r m p
  have hm := m.isLt
  have hc : getFlag .c (Machine.compareFlags r m p) = decide (m.toNat ≤ r.toNat) := by simp
  refine ⟨hc, hc.trans ?carryOut, ?zero, ?negative, ?others⟩
  case carryOut =>
    rw [toNat_onesComplement, decide_eq_decide]
    omega
  case zero => simp [beq_eq_decide, show r - m = 0#8 ↔ r = m from sub_eq_zero]
  case negative =>
    have hn : getFlag .n (Machine.compareFlags r m p) = (r - m).msb := by simp
    rw [hn, BitVec.msb_eq_decide, BitVec.toNat_sub, decide_eq_decide]
    omega
  case others => exact fun g hg => SameBut.compare r m p g (by revert g; decide)

/-! ## Binary subtraction -/

/-- Settles O34: the subtraction is the addition of the one's complement, whose value is 255 less the operand's. -/
theorem subBinary : Obligations.SubBinary := by
  intro a m p r q c (h : (r, q) = addBinary a (m ^^^ 0xFF) c p)
  have hm := m.isLt
  have hc := c.toNat_le
  have hr := toNat_of_addBinary h
  have hflag := getFlag_of_addBinary h
  refine ⟨?value, (hflag .c).trans ?noBorrow, (hflag .v).trans ?overflow, (hflag .z).trans (beq_eq_decide _ _),
    (hflag .n).trans (BitVec.msb_eq_getLsbD_last _), ?others⟩
  case value =>
    rw [hr, toNat_onesComplement]
    omega
  case noBorrow =>
    rw [toNat_onesComplement]
    simp only [reduceCtorEq, if_false, if_true, decide_eq_decide]
    omega
  case overflow =>
    simp only [reduceCtorEq, if_false, if_true]
    rw [msb_overflowByte_of_sum hr, toInt_onesComplement, decide_eq_decide]
    omega
  case others =>
    intro g hg
    rw [show q = _ from congrArg Prod.snd h]
    exact SameBut.addBinary a (m ^^^ 0xFF) c p g (by revert g; decide)

/-! ## Decimal addition -/

section
variable {a m p r q : Byte} {c : Bool} (h : (r, q) = addDecimal a m c p)
include h

/-- The byte of a decimal addition, from the intermediate sum (R223). -/
theorem toNat_of_addDecimal :
    r.toNat = (if 160 ≤ addDecimalMid a m c then addDecimalMid a m c + 96 else addDecimalMid a m c) % 256 := by
  rw [show r = _ from congrArg Prod.fst h]
  exact BitVec.toNat_ofNat _ _

/-- The flags of a decimal addition (R223, D9). -/
theorem getFlag_of_addDecimal (g : Flag) :
    getFlag g q =
      if g = .c then decide (160 ≤ addDecimalMid a m c) else
      if g = .z then decide ((a.toNat + m.toNat + c.toNat) % 256 = 0) else
      if g = .v then decide (a.toNat / 128 = m.toNat / 128 ∧ addDecimalMid a m c / 128 % 2 ≠ a.toNat / 128) else
      if g = .n then decide (addDecimalMid a m c / 128 % 2 = 1) else getFlag g p := by
  have ha := a.isLt
  have hm := m.isLt
  have hcarry : decide ((if addDecimalMid a m c ≥ 0xA0 then addDecimalMid a m c + 0x60 else addDecimalMid a m c) ≥ 0x100) =
      decide (160 ≤ addDecimalMid a m c) := by
    rw [decide_eq_decide]
    split <;> omega
  have hoverflow (b : Byte) (hb : b = BitVec.ofNat 8 (addDecimalMid a m c)) : ((a ^^^ b) &&& (m ^^^ b)).msb =
      decide (a.toNat / 128 = m.toNat / 128 ∧ addDecimalMid a m c / 128 % 2 ≠ a.toNat / 128) := by
    rw [msb_overflowByte, hb, BitVec.toNat_ofNat, decide_eq_decide]
    omega
  obtain ⟨-, rfl⟩ := Prod.mk.inj h
  simp only [getFlag_putFlag, hcarry, hoverflow _ rfl, msb_ofNat]

end

/-- On decimal digits the intermediate sum holds the sum of the operands digit by digit, before the carry out of the high
digit is taken off. -/
theorem addDecimalMid_digits {a m : Byte} {tens ones tens' ones' : Nat} (ht : tens ≤ 9) (ho : ones ≤ 9) (ht' : tens' ≤ 9)
    (ho' : ones' ≤ 9) (ha : a.toNat = 16 * tens + ones) (hm : m.toNat = 16 * tens' + ones') (c : Bool) :
    ∃ hi lo, lo ≤ 9 ∧ hi ≤ 19 ∧ addDecimalMid a m c = 16 * hi + lo ∧
      10 * tens + ones + (10 * tens' + ones') + c.toNat = 10 * hi + lo := by
  have hc := c.toNat_le
  have hal : a.toNat % 16 + m.toNat % 16 + c.toNat = ones + ones' + c.toNat := by omega
  rw [addDecimalMid, addDecimalLow, hal]
  by_cases h : 10 ≤ ones + ones' + c.toNat
  · refine ⟨tens + tens' + 1, ones + ones' + c.toNat - 10, by omega, by omega, ?_, by omega⟩
    rw [if_pos h]
    omega
  · refine ⟨tens + tens', ones + ones' + c.toNat, by omega, by omega, ?_, by omega⟩
    rw [if_neg h]
    omega

/-- The correction of the high digit takes a hundred off the number that the digits stand for. -/
theorem correctedDigits {hi lo : Nat} (hlo : lo ≤ 9) (hhi : hi ≤ 19) :
    (if 160 ≤ 16 * hi + lo then 16 * hi + lo + 96 else 16 * hi + lo) % 256 =
      16 * ((10 * hi + lo) % 100 / 10) + (10 * hi + lo) % 10 ∧
    (160 ≤ 16 * hi + lo ↔ 100 ≤ 10 * hi + lo) := by
  have hones : (10 * hi + lo) % 10 = lo := by omega
  have htens : (10 * hi + lo) % 100 / 10 = if 10 ≤ hi then hi - 10 else hi := by
    split <;> omega
  rw [hones, htens]
  constructor
  · split <;> split <;> omega
  · omega

/-- Settles O35: the intermediate sum by value, then the byte and the flags from it. -/
theorem addDecimal : Obligations.AddDecimal := by
  intro a m p r q c h
  have hr := toNat_of_addDecimal h
  have hflag := getFlag_of_addDecimal h
  have hc := c.toNat_le
  refine ⟨fun tens ones tens' ones' ht ho ht' ho' ha hm => ?digits, fun low mid hlow hmid => ?all, hflag .z,
    fun g hg => ?others⟩
  case digits =>
    obtain ⟨hi, lo, hlo, hhi, hmid, hsum⟩ := addDecimalMid_digits ht ho ht' ho' ha hm c
    obtain ⟨hbyte, hcarry⟩ := correctedDigits hlo hhi
    rw [hr, hmid, hsum, hbyte]
    exact ⟨rfl, (hflag .c).trans (by rw [hmid]; exact decide_eq_decide.2 hcarry)⟩
  case all =>
    have hmid' : mid = addDecimalMid a m c := by
      rw [hmid, hlow, addDecimalMid, addDecimalLow]
      simp only [ge_iff_le]
      split <;> omega
    rw [hmid']
    exact ⟨hflag .n, hflag .v, hflag .c, hr⟩
  case others =>
    obtain ⟨hgc, hgz, hgv, hgn⟩ : g ≠ .c ∧ g ≠ .z ∧ g ≠ .v ∧ g ≠ .n := by revert g; decide
    rw [hflag g, if_neg hgc, if_neg hgz, if_neg hgv, if_neg hgn]

/-! ## Decimal subtraction -/

/-- The difference of `SubDecimal` before the correction of the high digit (R225). -/
def subDecimalMid (a m : Byte) (c : Bool) : Int :=
  (a.toNat / 16 * 16 : Nat) - (m.toNat / 16 * 16 : Nat) + subDecimalLow a m c

/-- The byte of a decimal subtraction, from the intermediate difference (R225). -/
theorem toNat_of_subDecimal {a m p r q : Byte} {c : Bool} (h : (r, q) = subDecimal a m c p) :
    (r.toNat : Int) = (if subDecimalMid a m c < 0 then subDecimalMid a m c - 96 else subDecimalMid a m c) % 256 := by
  rw [show r = _ from congrArg Prod.fst h]
  change ((BitVec.ofInt 8 (if subDecimalMid a m c < 0 then subDecimalMid a m c - 0x60 else _)).toNat : Int) = _
  rw [BitVec.toNat_ofInt]
  exact Int.toNat_of_nonneg (Int.emod_nonneg _ (by decide))

/-- On decimal digits the intermediate difference holds the difference of the operands digit by digit, before the borrow
into the high digit is added. -/
theorem subDecimalMid_digits {a m : Byte} {tens ones tens' ones' : Nat} (ht : tens ≤ 9) (ho : ones ≤ 9) (ht' : tens' ≤ 9)
    (ho' : ones' ≤ 9) (ha : a.toNat = 16 * tens + ones) (hm : m.toNat = 16 * tens' + ones') (c : Bool) :
    ∃ hi lo : Int, 0 ≤ lo ∧ lo ≤ 9 ∧ -10 ≤ hi ∧ hi ≤ 9 ∧ subDecimalMid a m c = 16 * hi + lo ∧
      ((10 * tens + ones : Nat) : Int) + c.toNat - (10 * tens' + ones' : Nat) - 1 = 10 * hi + lo := by
  have hc := c.toNat_le
  have hal : ((a.toNat % 16 : Nat) : Int) - (m.toNat % 16 : Nat) + (c.toNat : Nat) - 1 = ones - ones' + c.toNat - 1 := by
    omega
  simp only [subDecimalMid, subDecimalLow, hal]
  by_cases h : (ones : Int) - ones' + c.toNat - 1 < 0
  · refine ⟨tens - tens' - 1, ones - ones' + c.toNat + 9, by omega, by omega, by omega, by omega, ?_, by omega⟩
    rw [if_pos h]
    omega
  · refine ⟨tens - tens', ones - ones' + c.toNat - 1, by omega, by omega, by omega, by omega, ?_, by omega⟩
    rw [if_neg h]
    omega

/-- The correction of the high digit adds a hundred to a negative difference of the numbers that the digits stand for. -/
theorem borrowedDigits {hi lo : Int} (hlo : 0 ≤ lo) (hlo' : lo ≤ 9) (hhi : -10 ≤ hi) (hhi' : hi ≤ 9) :
    (if 16 * hi + lo < 0 then 16 * hi + lo - 96 else 16 * hi + lo) % 256 =
      16 * ((100 + (10 * hi + lo)) % 100 / 10) + (100 + (10 * hi + lo)) % 10 := by
  have hones : (100 + (10 * hi + lo)) % 10 = lo := by omega
  have htens : (100 + (10 * hi + lo)) % 100 / 10 = if hi < 0 then hi + 10 else hi := by
    split <;> omega
  rw [hones, htens]
  split <;> split <;> omega

/-- Settles O36: the intermediate difference by value, then the byte from it; the flags are the binary subtraction's. -/
theorem subDecimal : Obligations.SubDecimal := by
  intro a m p r q c h
  have hr := toNat_of_subDecimal h
  have hq : q = (Machine.subBinary a m c p).2 := congrArg Prod.snd h
  refine ⟨fun tens ones tens' ones' ht ho ht' ho' ha hm => ?digits, fun low s hlow hs => ?all, hq⟩
  case digits =>
    obtain ⟨hi, lo, hlo, hlo', hhi, hhi', hmid, hdiff⟩ := subDecimalMid_digits ht ho ht' ho' ha hm c
    rw [hmid, borrowedDigits hlo hlo' hhi hhi', ← hdiff] at hr
    omega
  case all =>
    have hmid : s = subDecimalMid a m c := by
      rw [hs, hlow, subDecimalMid, subDecimalLow]
      simp only [Int.natCast_emod]
      omega
    rw [hmid]
    exact hr

/-! ## Shifts, rotates, increments, decrements -/

/-- The rotation of a byte to the left through the carry, by value. -/
theorem toNat_rotateLeft (v : Byte) (c : Bool) : ((v <<< 1) ||| byteOfBit c).toNat = 2 * v.toNat % 256 + c.toNat := by
  revert v c
  decide

/-- The rotation of a byte to the right through the carry, by value. -/
theorem rotateRight_eq (v : Byte) (c : Bool) :
    (v >>> 1) ||| (byteOfBit c <<< 7) = BitVec.ofNat 8 (v.toNat / 2 + 128 * c.toNat) := by
  revert v c
  decide

theorem toNat_rotateRight (v : Byte) (c : Bool) :
    ((v >>> 1) ||| (byteOfBit c <<< 7)).toNat = v.toNat / 2 + 128 * c.toNat := by
  have hv := v.isLt
  have hc := c.toNat_le
  rw [rotateRight_eq, BitVec.toNat_ofNat]
  omega

theorem getLsbD_seven (v : Byte) : v.getLsbD 7 = decide (128 ≤ v.toNat) := by
  exact (BitVec.msb_eq_getLsbD_last v).symm.trans (BitVec.msb_eq_decide v)

theorem getLsbD_zero (v : Byte) : v.getLsbD 0 = decide (v.toNat % 2 = 1) := Nat.testBit_zero _

/-- Z and N after a function that ends in `setZN` of its byte and writes no flag but C besides. -/
theorem resultFlags {r p q : Byte} (hq : ∃ p', q = setZN r p') (hsame : SameBut [.c, .z, .n] p q) :
    getFlag .z q = decide (r = 0) ∧ getFlag .n q = r.getLsbD 7 ∧
      ∀ g ∈ [Flag.i, .d, .b, .u, .v], getFlag g q = getFlag g p := by
  obtain ⟨p', rfl⟩ := hq
  refine ⟨?zero, ?negative, fun g hg => hsame g (by revert g; decide)⟩
  case zero => exact (getFlag_setZN .z r p').trans (beq_eq_decide _ _)
  case negative => exact (getFlag_setZN .n r p').trans (BitVec.msb_eq_getLsbD_last r)

/-- Settles O37: the bytes by value, C from the bit shifted out, and the other flags by `resultFlags`. -/
theorem shiftFunctions : Obligations.ShiftFunctions := by
  intro v p
  have hcarry (on : Bool) (r : Byte) : getFlag .c (setZN r (putFlag .c on p)) = on := by simp
  refine ⟨?aslByte, (hcarry _ _).trans (getLsbD_seven v), ?lsrByte, (hcarry _ _).trans (getLsbD_zero v),
    toNat_rotateLeft _ _, (hcarry _ _).trans (getLsbD_seven v), toNat_rotateRight _ _,
    (hcarry _ _).trans (getLsbD_zero v), ?incByte, getFlag_setZN .c _ p, ?decByte, getFlag_setZN .c _ p, ?flags⟩
  case aslByte => rw [aslByte, BitVec.toNat_shiftLeft, Nat.shiftLeft_eq, Nat.mul_comm]
  case lsrByte => rw [lsrByte, BitVec.toNat_ushiftRight, Nat.shiftRight_eq_div_pow]
  case incByte => rw [incByte, BitVec.toNat_add]; rfl
  case decByte =>
    rw [decByte, BitVec.toNat_sub, Nat.add_comm]
    rfl
  case flags =>
    have hweaken {q : Byte} (h : SameBut [.z, .n] p q) : SameBut [.c, .z, .n] p q :=
      fun g hg => h g fun e => hg (List.mem_cons_of_mem _ e)
    exact List.forall_mem_cons.2 ⟨resultFlags ⟨_, rfl⟩ (.asl v p), List.forall_mem_cons.2 ⟨resultFlags ⟨_, rfl⟩ (.lsr v p),
      List.forall_mem_cons.2 ⟨resultFlags ⟨_, rfl⟩ (.rol v p), List.forall_mem_cons.2 ⟨resultFlags ⟨_, rfl⟩ (.ror v p),
      List.forall_mem_cons.2 ⟨resultFlags ⟨_, rfl⟩ (hweaken (.inc v p)),
      List.forall_mem_singleton.2 (resultFlags ⟨_, rfl⟩ (hweaken (.dec v p)))⟩⟩⟩⟩⟩

end Sys2Proof.Proofs.Alu
end

section
/-! PROOF. The obligations of 46_undocumented.md, and NOP in all its forms (45_stack_control.md R296). -/

namespace Sys2Proof.Proofs.Undocumented
open Sys2Proof.Machine Sys2Proof.Proofs.Meanings Sys2Proof.Proofs.Results Sys2Proof.Proofs.Alu

/-! ## Combinations -/

/-- Settles O26: each combination runs its second half on the byte and the flags of its first. -/
theorem combinationResults : Obligations.CombinationResults := by
  intro i s u ea xa v r q h
  have hstores := storesTo_of_modifies h
  obtain ⟨ds, rfl⟩ : ∃ ds, u = s.setDevices ds := ⟨u.devices, hstores.1⟩
  exact ⟨hstores, fun hm hf => exec_combine (f := aslByte) (g := orA) (meaning_of_mnemonic hm) hf h,
    fun hm hf => exec_combine (f := rolByte) (g := andA) (meaning_of_mnemonic hm) hf h,
    fun hm hf => exec_combine (f := lsrByte) (g := eorA) (meaning_of_mnemonic hm) hf h,
    fun hm hf => exec_combine (f := rorByte) (g := adcA) (meaning_of_mnemonic hm) hf h,
    fun hm hf => exec_combine (f := decByte) (g := cmpA) (meaning_of_mnemonic hm) hf h,
    fun hm hf => exec_combine (f := incByte) (g := sbcA) (meaning_of_mnemonic hm) hf h⟩

/-! ## ARR (R331) -/

/-- Adding 6 to the low nibble alone, by value. -/
theorem addSixToLowNibble_eq (r : Byte) :
    (r &&& 0xF0) ||| ((r + 6) &&& 0x0F) = BitVec.ofNat 8 (16 * (r.toNat / 16) + (r.toNat + 6) % 16) := by
  revert r
  decide

/-- ARR's decimal result by its two nibbles: each is corrected by 6 under its own condition, and no carry passes between
them. -/
theorem arrDecimalResult_eq {t r : Byte} {low high : Nat}
    (hlow : low = if t.toNat % 16 + t.toNat % 2 > 5 then (r.toNat + 6) % 16 else r.toNat % 16)
    (hhigh : high = if t.toNat / 16 + t.toNat / 16 % 2 > 5 then (r.toNat / 16 + 6) % 16 else r.toNat / 16) :
    arrDecimalResult t r = BitVec.ofNat 8 (16 * high + low) := by
  have hcorrected : (if t.toNat % 16 + t.toNat % 2 > 5 then (r &&& 0xF0) ||| ((r + 6) &&& 0x0F) else r) =
      BitVec.ofNat 8 (16 * (r.toNat / 16) + low) := by
    rw [hlow]
    split
    · exact addSixToLowNibble_eq r
    · rw [Nat.div_add_mod]
      exact ((BitVec.ofNat_toNat 8 r).trans (BitVec.setWidth_eq r)).symm
  have hadd : BitVec.ofNat 8 (16 * (r.toNat / 16) + low) + 0x60 =
      BitVec.ofNat 8 (16 * ((r.toNat / 16 + 6) % 16) + low) := by
    apply BitVec.eq_of_toNat_eq
    rw [BitVec.toNat_add, BitVec.toNat_ofNat, BitVec.toNat_ofNat, show (0x60 : Byte).toNat = 96 from rfl]
    omega
  simp only [arrDecimalResult, hcorrected, hadd]
  rw [hhigh]
  split <;> rfl

section
variable {a v p m rot : Byte} (hm : m = a &&& v) (hrot : rot = BitVec.ofNat 8 (m.toNat / 2 + 128 * (getFlag .c p).toNat))
include hm hrot

theorem arrByte_binary (hd : getFlag .d p = false) : arrByte a v p =
    (rot, putFlag .v (rot.getLsbD 6 != rot.getLsbD 5) (putFlag .c (rot.getLsbD 6) (setZN rot p))) := by
  rw [arrByte, hd, ← hm, rotateRight_eq, ← hrot]
  rfl

theorem arrByte_decimal (hd : getFlag .d p = true) : arrByte a v p =
    (arrDecimalResult m rot, putFlag .c (decide (m.toNat / 16 + m.toNat / 16 % 2 > 5))
      (putFlag .v (m.getLsbD 6 != rot.getLsbD 6) (setZN rot p))) := by
  rw [arrByte, hd, ← hm, rotateRight_eq, ← hrot, if_pos rfl, BitVec.getLsbD_xor]

end

/-! ## Instructions that read one byte -/

/-- Settles O27: each of the five reads with its own effect; ARR's depends on D. -/
theorem stableCombinationResults : Obligations.StableCombinationResults := by
  intro i s t v m rot xa h hm hrot
  have hreads := readsTo_of_loadOperand h
  obtain ⟨ds, rfl⟩ := exists_devices_of_readsTo hreads
  have harr (hmn : i.mnemonic = .arr) := exec_read (f := arrA) (meaning_of_mnemonic hmn) h
  refine ⟨hreads, fun hmn => ?anc, fun hmn => ?alr, fun hmn => exec_read (f := axsX) (meaning_of_mnemonic hmn) h,
    fun hmn => exec_read (f := loadLas) (meaning_of_mnemonic hmn) h, fun hmn hd => ?binary,
    fun hmn hd low high hlow hhigh => ?decimal⟩
  case anc => rw [hm]; exact exec_read (f := ancA) (meaning_of_mnemonic hmn) h
  case alr => rw [hm]; exact exec_read (f := alrA) (meaning_of_mnemonic hmn) h
  case binary =>
    have hbyte := arrByte_binary hm hrot hd
    rw [harr hmn, arrA, show arrByte (s.setDevices ds).a v (s.setDevices ds).p = _ from hbyte]
    rfl
  case decimal =>
    have hbyte := arrByte_decimal hm hrot hd
    rw [arrDecimalResult_eq hlow hhigh] at hbyte
    rw [harr hmn, arrA, show arrByte (s.setDevices ds).a v (s.setDevices ds).p = _ from hbyte]
    rfl

/-- Settles O28: both run their function on the operand byte. -/
theorem immediateMagicResults : Obligations.ImmediateMagicResults := by
  rintro s t d v rfl
  exact ⟨fun hv => by rw [hv]; rfl, fun hv => by rw [hv]; rfl⟩

/-! ## Unstable stores -/

/-- SHY alone of the unstable stores is indexed by X: a fact of the opcode table. -/
theorem mode_of_unstableStore (i : Instr) :
    (if i.mnemonic ∈ [.ahx, .shy, .shx, .tas] then decide (i.entry.mode = .abx) == decide (i.mnemonic = .shy)
      else true) = true := by
  cases i <;> rfl

theorem mode_eq_abx_iff {i : Instr} (h : i.mnemonic ∈ [.ahx, .shy, .shx, .tas]) :
    i.entry.mode = .abx ↔ i.mnemonic = .shy := by
  simpa [h] using mode_of_unstableStore i

/-- Settles O29: each of the three stores the byte of its rule, TAS after it has set SP. -/
theorem unstableStoreResults : Obligations.UnstableStoreResults := by
  intro i s u ea xa index v hindex h
  have hx (hm : i.mnemonic = .shy) : index = s.x := by
    have hmode := (mode_eq_abx_iff (by rw [hm]; decide)).2 hm
    exact hindex.elim And.right fun e => absurd hmode e.1
  have hy {k : Mnemonic} (hm : i.mnemonic = k) (hk : k ∈ [.ahx, .shy, .shx, .tas] ∧ k ≠ .shy) : index = s.y := by
    have hmode : i.entry.mode ≠ .abx := by
      rw [ne_eq, mode_eq_abx_iff (hm ▸ hk.1), hm]
      exact hk.2
    exact hindex.elim (fun e => absurd e.1 hmode) And.right
  refine ⟨storesTo_of_stores h, fun hm hv => ?ahx, fun hm hv => ?shy, fun hm hv => ?shx, fun hm hv => ?tas⟩
  case ahx =>
    rw [hv, hy hm (by decide)] at h
    exact exec_store (f := ahxByte) (meaning_of_mnemonic hm) h fun _ _ _ => rfl
  case shy =>
    rw [hv, hx hm] at h
    exact exec_store (f := shyByte) (meaning_of_mnemonic hm) h fun _ _ _ => rfl
  case shx =>
    rw [hv, hy hm (by decide)] at h
    exact exec_store (f := shxByte) (meaning_of_mnemonic hm) h fun _ _ _ => rfl
  case tas =>
    rw [hv, hy hm (by decide)] at h
    obtain ⟨t, haddresses, hw⟩ := h
    obtain ⟨ds, rfl⟩ := exists_devices_of_readsTo (readsTo_of_addresses haddresses)
    obtain ⟨-, -, hxb, -⟩ := runs_address (h := storeTas) (meaning_of_mnemonic hm)
    have hstore : storeTas ea ((s.setDevices ds).advance i.entry.base i.entry.length) = _ :=
      busWrite_ok_sameBus (t := ((s.setDevices ds).advance i.entry.base i.entry.length).setSP (s.a &&& s.x)) hw rfl rfl
    rw [exec_address (meaning_of_mnemonic hm) haddresses hstore, finish_insensitive xa hxb, (busWrite_keeps hw).1]
    rfl

/-! ## NOP -/

section
variable {i : Instr} {s : State} (h : i.mnemonic = .nop)
include h

theorem meaning_of_nop_implied (hmode : i.entry.mode = .imp) : meaning i = .registers fun s => s := by
  rw [meaning, if_neg fun e => absurd e.1 (by rw [h]; decide), if_pos ⟨h, hmode⟩]

theorem meaning_of_nop_operand (hmode : i.entry.mode ≠ .imp) : meaning i = .read ignore := by
  rw [meaning, if_neg fun e => absurd e.1 (by rw [h]; decide), if_neg fun e => hmode e.2, h]
  rfl

end

/-- Settles O25: a NOP of mode imp touches no register, every other one reads its operand and ignores it. -/
theorem nopResults : Obligations.NopResults := by
  intro i s h
  by_cases hmode : i.entry.mode = .imp
  · obtain ⟨hlen, he⟩ := runs_registers (meaning_of_nop_implied h hmode)
    refine ⟨fun _ => ?_, fun v xa t hload => ?_⟩
    · rw [he, finish_no_cross, hlen]
      rfl
    · rcases loadOperand_cases hload with ⟨hacc, -⟩ | ⟨himm, -⟩ | ⟨m, ea, w, hm, -⟩
      · rw [hmode] at hacc; cases hacc
      · rw [hmode] at himm; cases himm
      · exact absurd hmode (mode_ne_of_memOperand hm).2.2.2
  · have hM := meaning_of_nop_operand h hmode
    refine ⟨fun hnone => ?_, fun v xa t hload => ⟨exec_read hM hload, readsTo_of_loadOperand hload⟩⟩
    rcases runs_read hM with ⟨op, d, himm, -, hbytes, -⟩ | ⟨m, hm, -⟩
    · have hload : i.loadOperand s = some (.ok (d, false) s) := by rw [Instr.loadOperand, himm, hbytes]
      exact exec_read hM hload
    · rw [hnone] at hm; cases hm

end Sys2Proof.Proofs.Undocumented
end

section
/-! PROOF. The obligations of 20_memory.md about the stack: what pushes write, and that as many pops give it back (R90 to
R92). -/

namespace Sys2Proof.Proofs.Stack
open Sys2Proof.Machine Sys2Proof.Proofs.Results

variable {s t u : State}

/-! ## Pushes -/

theorem pushedTo_nil (s : State) : s.PushedTo [] s := by
  refine ⟨?regs, fun _ _ => rfl, fun _ _ _ hv => ?none, fun _ _ _ => rfl⟩
  case regs => simp
  case none => cases hv

/-- A push in front of others: the others go to the addresses below its own, which they leave alone. -/
theorem pushedTo_cons {b : Byte} {bs : List Byte} {w : State} (hlen : bs.length < 256)
    (hw : busWrite (stackAddr s.sp) b s = .ok () w) (h : (w.setSP (s.sp - 1)).PushedTo bs t) : s.PushedTo (b :: bs) t := by
  obtain ⟨hregs, hother, hsame, hdropped⟩ := h
  obtain ⟨hwregs, hwother, hwsame, hwdropped⟩ := storesTo_of_busWrite (readsTo_refl s) rfl hw
  have htarget (k : Nat) : pushTarget (w.setSP (s.sp - 1)).sp k = pushTarget s.sp (k + 1) := pushTarget_succ s.sp k
  have hslots : w.slots = s.slots := by rw [hwregs]
  have hwritable (a : Addr) : (w.setSP (s.sp - 1)).writableAt a = s.writableAt a :=
    writableAt_congr (t := w.setSP (s.sp - 1)) hslots (busWrite_keeps hw).2 a
  have hne (k : Nat) (hk : k < bs.length) : pushTarget s.sp (k + 1) ≠ stackAddr s.sp := by
    rw [← pushTarget_zero]
    exact pushTarget_ne s.sp (by omega) (by omega) (by omega)
  have hfirst : t.byteAt (stackAddr s.sp) = w.byteAt (stackAddr s.sp) :=
    hother _ fun k hk => by rw [htarget]; exact (hne k hk).symm
  refine ⟨?regs, fun a ha => ?other, fun hwf k v hk hwr => ?same, fun k hk hwr => ?dropped⟩
  case regs =>
    have hsp : s.sp - 1 - BitVec.ofNat 8 bs.length = s.sp - BitVec.ofNat 8 (bs.length + 1) := by
      rw [BitVec.ofNat_add, BitVec.sub_sub, BitVec.add_comm]
      rfl
    rw [hregs, hwregs, List.length_cons, ← hsp]
    rfl
  case other =>
    have h0 : a ≠ stackAddr s.sp := by
      rw [← pushTarget_zero]
      exact ha 0 (Nat.zero_lt_succ _)
    exact (hother a fun k hk => by rw [htarget]; exact ha (k + 1) (Nat.succ_lt_succ hk)).trans (hwother a h0)
  case same =>
    cases k with
    | zero =>
      obtain rfl : b = v := Option.some.inj hk
      rw [pushTarget_zero] at hwr ⊢
      exact hfirst.trans (hwsame hwr hwf)
    | succ k =>
      rw [← htarget] at hwr ⊢
      exact hsame ((memoryWf_congr (s := w) rfl).trans (busWrite_memoryWf hw hwf)) k v hk ((hwritable _).trans hwr)
  case dropped =>
    cases k with
    | zero =>
      rw [pushTarget_zero] at hwr ⊢
      exact hfirst.trans (hwdropped hwr)
    | succ k =>
      have hk' : k < bs.length := Nat.lt_of_succ_lt_succ hk
      rw [← htarget] at hwr
      rw [← hwother _ (hne k hk'), ← htarget]
      exact hdropped k hk' ((hwritable _).trans hwr)

theorem pushedTo_of_pushAll {bs : List Byte} (hlen : bs.length ≤ 256) (h : pushAll bs s = .ok () t) : s.PushedTo bs t := by
  induction bs generalizing s with
  | nil => cases h; exact pushedTo_nil _
  | cons b bs ih =>
    obtain ⟨_, s1, hpush, hrest⟩ := Res.bind_eq_ok.1 h
    obtain ⟨w, hw, rfl⟩ := push_eq_ok.1 hpush
    exact pushedTo_cons hlen hw (ih (Nat.le_of_succ_le hlen) hrest)

/-- Settles O42, by induction on the bytes. -/
theorem stackPushes : Obligations.StackPushes := by
  intro s t bytes hlen h
  exact pushedTo_of_pushAll hlen h

/-- Pushes whose addresses are in range succeed, also from a state that differs in PC and the cycle counter. -/
theorem pushAll_elsewhere {bs : List Byte} (hlen : bs.length ≤ 256)
    (h : ∀ k < bs.length, s.inRange (pushTarget s.sp k) = true) :
    ∃ u, s.PushedTo bs u ∧ ∀ pc c, pushAll bs { s with pc := pc, cycles := c } = .ok () { u with pc := pc, cycles := c } := by
  obtain ⟨u, hu⟩ := pushAll_of_inRange h
  have hpushed := pushedTo_of_pushAll hlen hu
  refine ⟨u, hpushed, fun pc c => ?_⟩
  rw [pushAll_sameBus bs (t := { s with pc := pc, cycles := c }) hu rfl rfl rfl, hpushed.1]
  rfl

/-! ## Pops -/

/-- Pops of readable bytes give them in rising order and change nothing but the stack pointer. -/
theorem popAll_of_byteAt {bs : List Byte}
    (h : ∀ k v, bs[k]? = some v → t.byteAt (stackAddr (t.sp + BitVec.ofNat 8 (k + 1))) = some v) :
    popAll bs.length t = .ok bs (t.setSP (t.sp + BitVec.ofNat 8 bs.length)) := by
  induction bs generalizing t with
  | nil =>
    have hsp : t.sp + BitVec.ofNat 8 0 = t.sp := BitVec.add_zero t.sp
    rw [List.length_nil, hsp]
    rfl
  | cons b bs ih =>
    have hadd (n : Nat) : t.sp + 1 + BitVec.ofNat 8 n = t.sp + BitVec.ofNat 8 (n + 1) := by
      rw [BitVec.ofNat_add, BitVec.add_assoc, BitVec.add_comm (BitVec.ofNat 8 n)]
      rfl
    have hpop : pop t = .ok b (t.setSP (t.sp + 1)) := pop_ok (busRead_of_byteAt (h 0 b rfl))
    have hrest := ih (t := t.setSP (t.sp + 1)) fun k v hk => by
      rw [State.setSP_sp, hadd]
      exact h (k + 1) v hk
    rw [List.length_cons, popAll, hpop, Res.ok_bind, hrest, Res.ok_bind, State.setSP_sp, hadd]
    rfl

/-- Settles O43: the bytes pushed stand at their addresses, and pops read them upwards from the last one. -/
theorem popsUndoPushes : Obligations.PopsUndoPushes := by
  intro s t bytes hlen hwf hwritable hpush
  obtain ⟨hregs, -, hbytes, -⟩ := pushedTo_of_pushAll hlen hpush
  have hsp : t.sp = s.sp - BitVec.ofNat 8 bytes.length := by rw [hregs]
  have hpop := popAll_of_byteAt (t := t) (bs := bytes.reverse) fun k v hk => by
    have hk' : k < bytes.length := by
      obtain ⟨hk', -⟩ := List.getElem?_eq_some_iff.1 hk
      rwa [List.length_reverse] at hk'
    have hplace : t.sp + BitVec.ofNat 8 (k + 1) = s.sp - BitVec.ofNat 8 (bytes.length - 1 - k) := by
      have hsplit : bytes.length = (bytes.length - 1 - k) + (k + 1) := by omega
      rw [hsp]
      conv_lhs => rw [hsplit, BitVec.ofNat_add, ← BitVec.sub_sub]
      exact BitVec.sub_add_cancel _ _
    rw [List.getElem?_reverse hk'] at hk
    rw [hplace]
    exact hbytes hwf _ v hk (hwritable _)
  refine ⟨t.setSP s.sp, ?_, rfl⟩
  rw [List.length_reverse, hsp, BitVec.sub_add_cancel] at hpop
  exact hpop

end Sys2Proof.Proofs.Stack
end

section
/-! PROOF. The obligations of 44_branch.md, 45_stack_control.md and 60_exceptions.md: branches, jumps, the stack
instructions, and interrupts. -/

namespace Sys2Proof.Proofs.Control
open Sys2Proof.Machine Sys2Proof.Proofs.Meanings Sys2Proof.Proofs.Results Sys2Proof.Proofs.Stack

variable {s t u w : State} {i : Instr}

/-! ## Branches -/

theorem runs_branch (hM : meaning i = .branch) :
    ∃ o op, i.entry.mode = .rel ∧ encode i = [op, byteOfOffset o] ∧ i.wellFormed = offsetFits o ∧
      exec i = branch i.mnemonic o := by
  have h := runs_meaning i
  rw [hM] at h
  generalize exec i = e at h ⊢
  cases h with
  | branch o hmode hbytes hwf => exact ⟨o, _, hmode, hbytes, hwf, rfl⟩

/-- The byte of an offset, extended by its sign, is the offset's word (R260). -/
theorem signExtend_byteOfOffset {o : Int} (h : offsetFits o = true) : (byteOfOffset o).signExtend 16 = sext16 o := by
  obtain ⟨hlo, hhi⟩ : -128 ≤ o ∧ o ≤ 127 := by simpa [offsetFits] using h
  rw [BitVec.signExtend, sext16]
  exact congrArg (BitVec.ofInt 16) (offsetOfByte_byteOfOffset h)

/-- The flag that each branch mnemonic tests, and the value it branches on (R261 to R268). -/
def branchTests : List (Mnemonic × Flag × Bool) :=
  [(.bcc, .c, false), (.bcs, .c, true), (.bne, .z, false), (.beq, .z, true),
    (.bpl, .n, false), (.bmi, .n, true), (.bvc, .v, false), (.bvs, .v, true)]

theorem branchTests_meaning : ∀ r ∈ branchTests, mnemonicMeaning r.1 = .branch ∧ r.1 ≠ .lax ∧ r.1 ≠ .nop := by
  simp [branchTests, mnemonicMeaning]

theorem branchTests_cond (p : Byte) : ∀ r ∈ branchTests, branchCond r.1 p = decide (getFlag r.2.1 p = r.2.2) := by
  simp [branchTests, branchCond]

theorem branchBody_samePage {o : Int} (h : (s.pc + sext16 o).toNat / 256 = s.pc.toNat / 256) :
    branchBody true o s = { s with pc := s.pc + sext16 o, cycles := s.cycles + 1 } := by
  have hcross : pageCross s.pc (s.pc + sext16 o) = false := by rw [pageCross_eq, decide_eq_false (not_not_intro h)]
  simp only [branchBody, if_true, hcross]
  rfl

theorem branchBody_otherPage {o : Int} (h : (s.pc + sext16 o).toNat / 256 ≠ s.pc.toNat / 256) :
    branchBody true o s = { s with pc := s.pc + sext16 o, cycles := s.cycles + 2 } := by
  have hcross : pageCross s.pc (s.pc + sext16 o) = true := by rw [pageCross_eq, decide_eq_true h]
  simp only [branchBody, if_true, hcross]
  rfl

/-- Settles O18: the branch's body by its condition, and the page cross by value. -/
theorem branchResults : Obligations.BranchResults := by
  rintro i s op d f value next target hrow hwf hbytes rfl rfl
  have hrow' : (i.mnemonic, f, value) ∈ branchTests := hrow
  obtain ⟨hM, hlax, hnop⟩ := branchTests_meaning _ hrow'
  obtain ⟨o, op', -, hbytes', hfits, he⟩ := runs_branch ((meaning_of_mnemonic rfl hlax hnop).trans hM)
  have hcond : branchCond i.mnemonic s.p = decide (getFlag f s.p = value) := branchTests_cond s.p _ hrow'
  obtain ⟨rfl, rfl⟩ : op = op' ∧ d = byteOfOffset o := by simpa [hbytes] using hbytes'
  rw [signExtend_byteOfOffset (hfits ▸ hwf)]
  have hexec : exec i s = .next (branchBody (decide (getFlag f s.p = value)) o (s.advance 2 2)) := by
    rw [he, ← hcond]
    rfl
  refine ⟨fun hv => ?notTaken, fun hv hpage => ?samePage, fun hv hpage => ?otherPage⟩
  case notTaken =>
    rw [hexec, decide_eq_false hv]
    rfl
  case samePage =>
    rw [hexec, decide_eq_true hv, branchBody_samePage (s := s.advance 2 2) hpage]
    rfl
  case otherPage =>
    rw [hexec, decide_eq_true hv, branchBody_otherPage (s := s.advance 2 2) hpage]
    rfl

/-! ## Jumps and subroutines -/

/-- Settles O19: JMP sets PC to the effective address after it has advanced. -/
theorem jumpResults : Obligations.JumpResults := by
  intro i s t ea xa hm ha
  refine ⟨?_, readsTo_of_addresses ha⟩
  rw [exec_address (h := jumpTo) (meaning_of_mnemonic hm) ha rfl, (readsTo_of_addresses ha).1]
  rfl

/-- A word popped from a state that differs in PC and the cycle counter. -/
theorem popAddr_elsewhere {lo hi : Byte} (hlo : busRead (stackAddr (s.sp + 1)) s = .ok lo t)
    (hhi : busRead (stackAddr (s.sp + 2)) t = .ok hi u) (pc : Addr) (c : Nat) :
    popAddr { s with pc := pc, cycles := c } =
      .ok (mkAddr hi lo) { s with sp := s.sp + 2, pc := pc, cycles := c, devices := u.devices } := by
  have hlo' := busRead_ok_sameBus (t := { s with pc := pc, cycles := c }) hlo rfl rfl
  have hhi' := busRead_ok_sameBus (t := { s with pc := pc, cycles := c, devices := t.devices }) hhi
    (by rw [(busRead_keeps hlo).1]; rfl) rfl
  exact popAddr_ok hlo' hhi'

theorem readsTo_two {a b : Addr} {v v' : Byte} (h : busRead a s = .ok v t) (h' : busRead b t = .ok v' u) : s.ReadsTo u :=
  (readsTo_of_busRead h).trans (readsTo_of_busRead h')

/-- Settles O20: JSR pushes two bytes and jumps, RTS pops them and adds one. -/
theorem subroutineResults : Obligations.SubroutineResults := by
  intro s
  refine ⟨fun a h0 h1 => ?jsr, fun lo hi t u hlo hhi => ⟨?rts, readsTo_two hlo hhi⟩⟩
  case jsr =>
    obtain ⟨u, hpushed, hpush⟩ := pushAll_elsewhere (s := s) (bs := [hiByte (s.pc + 2), loByte (s.pc + 2)]) (by simp)
      fun k hk => match k, hk with
        | 0, _ => h0
        | 1, _ => h1
    have hret : s.pc + 3 - 1 = s.pc + 2 := by rw [BitVec.sub_eq_iff_eq_add, BitVec.add_assoc]; rfl
    have hcall : callTo a (s.advance 6 3) = .ok () { u with pc := a, cycles := s.cycles + 6 } := by
      rw [callTo, pushAddr_eq_pushAll]
      show (pushAll [hiByte (s.pc + 3 - 1), loByte (s.pc + 3 - 1)] { s with pc := s.pc + 3, cycles := s.cycles + 6 }).bind
        _ = _
      rw [hret, hpush]
      rfl
    exact ⟨u, hpushed, addressed_next (m := .abs a) (t := s) rfl hcall⟩
  case rts =>
    show (returnFromCall { s with pc := s.pc + 1, cycles := s.cycles + 6 }).toResult = _
    rw [returnFromCall, popAddr_elsewhere hlo hhi, (readsTo_two hlo hhi).1]
    rfl

/-! ## The stack instructions -/

/-- One byte pushed from a state that differs in PC and the cycle counter. -/
theorem pushByte (v : Byte) (h : s.inRange (pushTarget s.sp 0) = true) :
    ∃ u, s.PushedTo [v] u ∧ ∀ pc c, push v { s with pc := pc, cycles := c } = .ok () { u with pc := pc, cycles := c } := by
  obtain ⟨u, hpushed, hpush⟩ := pushAll_elsewhere (s := s) (bs := [v]) (by simp) fun k hk =>
    match k, hk with
    | 0, _ => h
  exact ⟨u, hpushed, fun pc c => (push_eq_pushAll _ _).trans (hpush pc c)⟩

/-- One byte popped from a state that differs in PC and the cycle counter. -/
theorem pop_elsewhere {v : Byte} (h : busRead (stackAddr (s.sp + 1)) s = .ok v t) (pc : Addr) (c : Nat) :
    pop { s with pc := pc, cycles := c } = .ok v { s with sp := s.sp + 1, pc := pc, cycles := c, devices := t.devices } :=
  pop_ok (busRead_ok_sameBus (t := { s with pc := pc, cycles := c }) h rfl rfl)

/-- Settles O23: a push or a pull of one byte from the advanced state. -/
theorem pushAndPullResults : Obligations.PushAndPullResults := by
  intro s
  refine ⟨fun h => ⟨?pha, ?php⟩, fun v t hread => ⟨?pla, ?plp, readsTo_of_busRead hread⟩⟩
  case pha =>
    obtain ⟨u, hpushed, hpush⟩ := pushByte s.a h
    refine ⟨u, hpushed, ?_⟩
    show (push s.a { s with pc := s.pc + 1, cycles := s.cycles + 3 }).toResult = _
    rw [hpush, hpushed.1]
    rfl
  case php =>
    obtain ⟨u, hpushed, hpush⟩ := pushByte (s.p ||| 0x30) h
    refine ⟨u, hpushed, ?_⟩
    show (push (s.p ||| 0x30) { s with pc := s.pc + 1, cycles := s.cycles + 3 }).toResult = _
    rw [hpush, hpushed.1]
    rfl
  case pla =>
    show (pullA { s with pc := s.pc + 1, cycles := s.cycles + 4 }).toResult = _
    rw [pullA, pop_elsewhere hread, (busRead_keeps hread).1]
    rfl
  case plp =>
    show (pullP { s with pc := s.pc + 1, cycles := s.cycles + 4 }).toResult = _
    rw [pullP, pop_elsewhere hread, (busRead_keeps hread).1]
    rfl

/-- Settles O24: each flag instruction runs its register function. -/
theorem flagInstructionResults : Obligations.FlagInstructionResults := by
  rintro s t rfl
  exact ⟨rfl, rfl, rfl, rfl, rfl, rfl, rfl⟩

/-! ## Taking an interrupt -/

theorem pushAll_append (bs cs : List Byte) (s : State) :
    pushAll (bs ++ cs) s = (pushAll bs s).bind fun _ u => pushAll cs u := by
  induction bs generalizing s with
  | nil => rfl
  | cons b bs ih =>
    rw [List.cons_append, pushAll, pushAll]
    rcases push b s with ⟨_, u⟩ | r
    · exact ih u
    · rfl

/-- An interrupt entry is three pushes and a vector read. -/
theorem interruptEntry_eq (vector : Addr) (b : Bool) (s : State) :
    interruptEntry vector b s =
      (pushAll [hiByte s.pc, loByte s.pc, if b then pushedByInstruction s.p else pushedByInterrupt s.p] s).bind fun _ u =>
      (readWord vector (u.setP (putFlag .i true s.p))).bind fun target w => .ok () (w.setPC target) := by
  rw [interruptEntry, pushAddr_eq_pushAll, show ∀ x y z : Byte, [x, y, z] = [x, y] ++ [z] from fun _ _ _ => rfl,
    pushAll_append]
  rcases hpc : pushAll [hiByte s.pc, loByte s.pc] s with ⟨_, u⟩ | r
  · have hp : u.p = s.p := by rw [(pushedTo_of_pushAll (by simp) hpc).1]
    rw [Res.ok_bind, Res.ok_bind, hp, ← push_eq_pushAll]
    rcases hst : push (if b then pushedByInstruction s.p else pushedByInterrupt s.p) u with ⟨_, w⟩ | r
    · have hp' : w.p = s.p := by
        rw [push_eq_pushAll] at hst
        rw [(pushedTo_of_pushAll (by simp) hst).1]
        exact hp
      rw [Res.ok_bind, Res.ok_bind, hp']
    · rfl
  · rfl

theorem readWord_ok {a : Addr} {lo hi : Byte} (hlo : busRead a s = .ok lo t) (hhi : busRead (a + 1) t = .ok hi u) :
    readWord a s = .ok (mkAddr hi lo) u := by
  rw [readWord, hlo, Res.ok_bind, hhi]
  rfl

/-- An entry whose accesses are in range enters, also from a state that differs in PC and the cycle counter. -/
theorem interruptEntry_enters {vector : Addr} (h : s.entryInRange vector = true) (b : Bool) (pc : Addr) (c : Nat) :
    ∃ t, s.EntersThrough vector pc (if b then pushedByInstruction s.p else pushedByInterrupt s.p) t ∧
      interruptEntry vector b { s with pc := pc, cycles := c } = .ok () { t with cycles := c } := by
  simp only [State.entryInRange, Bool.and_eq_true] at h
  obtain ⟨⟨⟨⟨h0, h1⟩, h2⟩, hv⟩, hv'⟩ := h
  obtain ⟨u, hpushed, hpush⟩ := pushAll_elsewhere (s := s)
    (bs := [hiByte pc, loByte pc, if b then pushedByInstruction s.p else pushedByInterrupt s.p]) (by simp)
    fun k hk => match k, hk with
      | 0, _ => h0
      | 1, _ => h1
      | 2, _ => h2
  obtain ⟨hslots, hshapes, -⟩ := pushAll_keeps (hpush pc c)
  obtain ⟨lo, w, hlo⟩ := busRead_of_inRange ((inRange_congr (s := s) (t := u) hslots hshapes vector).trans hv)
  have hwslots : w.slots = u.slots := by rw [(busRead_keeps hlo).1]; rfl
  have hwshapes : w.shapes = u.shapes := shapes_of_stills (busRead_keeps hlo).2
  obtain ⟨hi, w', hhi⟩ := busRead_of_inRange
    ((inRange_congr (s := s) (t := w) (hwslots.trans hslots) (hwshapes.trans hshapes) (vector + 1)).trans hv')
  have hreads : u.ReadsTo w' := readsTo_two hlo hhi
  refine ⟨_, ⟨u, lo, w, hi, w', hpushed, hlo, hhi, hreads, rfl⟩, ?_⟩
  have hlo' := busRead_ok_sameBus (t := { u with pc := pc, cycles := c, p := putFlag .i true s.p }) hlo rfl rfl
  have hhi' := busRead_ok_sameBus
    (t := { u with pc := pc, cycles := c, p := putFlag .i true s.p, devices := w.devices }) hhi hwslots.symm rfl
  rw [interruptEntry_eq, hpush, Res.ok_bind]
  show (readWord vector { u with pc := pc, cycles := c, p := putFlag .i true s.p }).bind _ = _
  rw [readWord_ok hlo' hhi', hreads.1]
  rfl

/-- A service whose accesses are in range, from a state that is not advanced. -/
theorem serviceInterrupt_enters {vector : Addr} (h : s.entryInRange vector = true) :
    ∃ t, s.EntersThrough vector s.pc ((s.p &&& 0xEF) ||| 0x20) t ∧
      serviceInterrupt vector s = .ok () { t with intr := .none, cycles := s.cycles + 7 } := by
  obtain ⟨t, henters, hentry⟩ := interruptEntry_enters h false s.pc s.cycles
  refine ⟨t, henters, ?_⟩
  rw [serviceInterrupt, show interruptEntry vector false s = _ from hentry]
  rfl

/-! ## The choice of a step -/

section
variable (hrun : s.halted = false)
include hrun

theorem step_of_nmi (h : s.intr = .nmi) : step s = (serviceInterrupt nmiVector s).toResult := by
  simp only [step, nextEvent, hrun, h, Bool.false_eq_true, if_false]

theorem step_of_irq (h : s.intr = .irq) (hi : getFlag .i s.p = false) :
    step s = (serviceInterrupt irqVector s).toResult := by
  simp only [step, nextEvent, hrun, h, hi, Bool.false_eq_true, if_false]

theorem step_of_none (h : s.intr = .none) : step s = runInstruction s := by
  simp only [step, nextEvent, hrun, h, Bool.false_eq_true, if_false]

theorem step_of_masked (h : s.intr = .irq) (hi : getFlag .i s.p = true) : step s = runInstruction s := by
  simp only [step, nextEvent, hrun, h, hi, Bool.false_eq_true, if_false, if_true]

end

theorem step_of_halted (h : s.halted = true) : step s = .fault .halted := by
  simp only [step, nextEvent, h, if_true]

/-- Settles O7, by the choice of the step. -/
theorem stepChoosesOneOfFour : Obligations.StepChoosesOneOfFour := by
  intro s
  exact ⟨step_of_halted, step_of_nmi, step_of_irq,
    fun hrun h => h.elim (step_of_none hrun) fun ⟨hirq, hi⟩ => step_of_masked hrun hirq hi⟩

/-- Settles O8: the step is the service through the NMI vector, whatever I holds. -/
theorem nmiService : Obligations.NmiService := by
  intro s hrun hintr hrange
  obtain ⟨t, henters, hservice⟩ := serviceInterrupt_enters hrange
  exact ⟨t, henters, by rw [step_of_nmi hrun hintr, nmiVector, hservice]; rfl⟩

/-- Settles O9: with I clear the step is the service through the vector that IRQ shares with BRK. -/
theorem irqService : Obligations.IrqService := by
  intro s hrun hintr hi hrange
  obtain ⟨t, henters, hservice⟩ := serviceInterrupt_enters hrange
  exact ⟨t, henters, by rw [step_of_irq hrun hintr hi, irqVector, hservice]; rfl⟩

/-- Settles O21: BRK enters from the advanced state. -/
theorem brkTakesInterrupt : Obligations.BrkTakesInterrupt := by
  intro s pad hrange
  obtain ⟨t, henters, hentry⟩ := interruptEntry_enters hrange true (s.pc + 2) (s.cycles + 7)
  exact ⟨t, henters, congrArg Res.toResult hentry⟩

/-- Settles O30: a halted core stays halted under both raises. -/
theorem kilHalts : Obligations.KilHalts := by
  rintro op s t rfl
  refine ⟨rfl, step_of_halted rfl, step_of_halted ?_, step_of_halted rfl⟩
  rw [State.raiseIrq]
  split <;> rfl

/-! ## Returning -/

/-- Settles O22: three pops from the advanced state, the status register set after the first. -/
theorem rtiRestores : Obligations.RtiRestores := by
  intro s t u w v lo hi hv hlo hhi
  have hreads : s.ReadsTo w := (readsTo_of_busRead hv).trans (readsTo_two hlo hhi)
  refine ⟨?_, hreads⟩
  have htslots : t.slots = s.slots := by rw [(busRead_keeps hv).1]; rfl
  have huslots : u.slots = s.slots := by rw [(busRead_keeps hlo).1]; exact htslots
  have hsp2 : s.sp + 1 + 1 = s.sp + 2 := by rw [BitVec.add_assoc]; rfl
  have hsp3 : s.sp + 1 + 2 = s.sp + 3 := by rw [BitVec.add_assoc]; rfl
  let x := ((s.setSP (s.sp + 1)).setP (statusOfPopped v)).setDevices t.devices
  have hlo' : busRead (stackAddr (x.sp + 1)) x = .ok lo (x.setDevices u.devices) := by
    rw [← hsp2] at hlo
    exact busRead_ok_sameBus hlo htslots.symm rfl
  have hhi' : busRead (stackAddr (x.sp + 2)) (x.setDevices u.devices) = .ok hi (x.setDevices w.devices) := by
    rw [← hsp3] at hhi
    exact busRead_ok_sameBus hhi huslots.symm rfl
  have hpop := popAddr_elsewhere hlo' hhi' (s.pc + 1) (s.cycles + 6)
  have hbody : interruptReturn { s with pc := s.pc + 1, cycles := s.cycles + 6 } =
      .ok () { s with sp := s.sp + 1 + 2, p := v ||| 0x20, pc := mkAddr hi lo, cycles := s.cycles + 6, devices := w.devices } := by
    rw [interruptReturn, pop_elsewhere hv, Res.ok_bind]
    exact congrArg (fun r : Res Addr => r.bind fun target s => .ok () (s.setPC target)) hpop
  rw [hsp3] at hbody
  rw [hreads.1]
  exact congrArg Res.toResult hbody

/-! ## Return after entry -/

/-- What an interrupt entry leaves on a writable stack: above the stack pointer the status, and above it PC. -/
theorem stack_of_interruptEntry {vector : Addr} {b : Bool} (hwf : s.memoryWf = true)
    (hwritable : ∀ sp : Byte, s.writableAt (stackAddr sp) = true) (h : interruptEntry vector b s = .ok () t) :
    t.sp = s.sp - 3 ∧
    t.byteAt (stackAddr (s.sp - 2)) = some (if b then pushedByInstruction s.p else pushedByInterrupt s.p) ∧
    t.byteAt (stackAddr (s.sp - 1)) = some (loByte s.pc) ∧ t.byteAt (stackAddr s.sp) = some (hiByte s.pc) := by
  rw [interruptEntry_eq] at h
  obtain ⟨_, u, hpush, h⟩ := Res.bind_eq_ok.1 h
  obtain ⟨target, w, hvector, h⟩ := Res.bind_eq_ok.1 h
  cases h
  obtain ⟨lo, w1, hlo, hvector⟩ := Res.bind_eq_ok.1 hvector
  obtain ⟨hi, w2, hhi, hvector⟩ := Res.bind_eq_ok.1 hvector
  cases hvector
  obtain ⟨hregs, hbytes⟩ := readsTo_two hlo hhi
  obtain ⟨huregs, -, hpushed, -⟩ := pushedTo_of_pushAll (by simp) hpush
  have hbyte (k : Nat) (v : Byte) (hk : [hiByte s.pc, loByte s.pc,
      if b then pushedByInstruction s.p else pushedByInterrupt s.p][k]? = some v) :
      w.byteAt (pushTarget s.sp k) = some v := (hbytes _).trans (hpushed hwf k v hk (hwritable _))
  refine ⟨?_, hbyte 2 _ rfl, hbyte 1 _ rfl, (congrArg w.byteAt (pushTarget_zero s.sp)).symm.trans (hbyte 0 _ rfl)⟩
  rw [State.setPC_sp, hregs, State.setP_sp, huregs]
  rfl

/-- RTI in a state with the stack that an interrupt entry left. -/
theorem rti_of_interruptEntry {vector : Addr} {b : Bool} (hwf : s.memoryWf = true)
    (hwritable : ∀ sp : Byte, s.writableAt (stackAddr sp) = true) (h : interruptEntry vector b s = .ok () t)
    (hbytes : ∀ a, w.byteAt a = t.byteAt a) (hsp : w.sp = t.sp) (hrti : exec .rti w = .next u) :
    u.pc = s.pc ∧ u.p = (if b then pushedByInstruction s.p else pushedByInterrupt s.p) ||| 0x20 ∧ u.sp = s.sp := by
  obtain ⟨htsp, hstatus, hlo, hhi⟩ := stack_of_interruptEntry hwf hwritable h
  rw [← hbytes] at hstatus hlo hhi
  have hback : s.sp - 2 = w.sp + 1 ∧ s.sp - 1 = w.sp + 2 ∧ s.sp = w.sp + 3 := by
    rw [hsp, htsp]
    refine ⟨?_, ?_, ?_⟩ <;> bv_omega
  obtain ⟨hsp1, hsp2, hsp3⟩ := hback
  rw [hsp1] at hstatus
  rw [hsp2] at hlo
  rw [hsp3] at hhi
  obtain ⟨hexec, -⟩ := rtiRestores w w w w _ _ _ (busRead_of_byteAt hstatus) (busRead_of_byteAt hlo) (busRead_of_byteAt hhi)
  rw [hexec] at hrti
  cases hrti
  exact ⟨mkAddr_hiByte_loByte s.pc, rfl, hsp3.symm⟩

theorem rti_of_service {vector : Addr} (hwf : s.memoryWf = true)
    (hwritable : ∀ sp : Byte, s.writableAt (stackAddr sp) = true) (h : (serviceInterrupt vector s).toResult = .next t)
    (hrti : exec .rti t = .next u) : u.pc = s.pc ∧ u.p = (s.p &&& 0xEF) ||| 0x20 ∧ u.sp = s.sp := by
  obtain ⟨_, w, hentry, h⟩ := Res.bind_eq_ok.1 (Res.toResult_eq_next.1 h)
  cases h
  obtain ⟨hpc, hp, hsp⟩ := rti_of_interruptEntry (w := (w.addCycles serviceCycles).setIntr .none) hwf hwritable hentry
    (fun _ => rfl) rfl hrti
  refine ⟨hpc, hp.trans ?_, hsp⟩
  rw [if_neg Bool.false_ne_true, pushedByInterrupt, BitVec.or_assoc]
  rfl

/-- Settles O58: RTI pops the three bytes that the entry pushed. -/
theorem returnUndoesEntry : Obligations.ReturnUndoesEntry := by
  intro s t u hwf hwritable
  refine ⟨fun pad hbrk hrti => ?brk, fun hrun hintr hstep hrti => ?nmi, fun hrun hintr hi hstep hrti => ?irq⟩
  case brk =>
    obtain ⟨hpc, hp, hsp⟩ := rti_of_interruptEntry (s := s.advance 7 2) hwf hwritable (Res.toResult_eq_next.1 hbrk)
      (fun _ => rfl) rfl hrti
    refine ⟨hpc, hp.trans ?_, hsp⟩
    rw [if_pos rfl, pushedByInstruction, BitVec.or_assoc]
    rfl
  case nmi =>
    rw [step_of_nmi hrun hintr] at hstep
    exact rti_of_service hwf hwritable hstep hrti
  case irq =>
    rw [step_of_irq hrun hintr hi] at hstep
    exact rti_of_service hwf hwritable hstep hrti

/-- Settles O59: RTS pops the two bytes that JSR pushed, and adds the one that JSR took off. -/
theorem rtsUndoesJsr : Obligations.RtsUndoesJsr := by
  intro s a hwf hwritable
  have hin (k : Nat) : s.inRange (pushTarget s.sp k) = true := inRange_of_writableAt (hwritable _)
  obtain ⟨t, ⟨hregs, hother, hpushed, -⟩, hjsr⟩ := (subroutineResults s).1 a (hin 0) (hin 1)
  have hsp : t.sp = s.sp - 2 := by rw [hregs]; rfl
  have hlo := hpushed hwf 1 _ rfl (hwritable _)
  have hhi := hpushed hwf 0 _ rfl (hwritable _)
  have hback : s.sp - 1 = t.sp + 1 ∧ s.sp = t.sp + 2 := by
    rw [hsp]
    constructor <;> bv_omega
  rw [show pushTarget s.sp 1 = stackAddr (s.sp - 1) from rfl, hback.1] at hlo
  rw [pushTarget_zero, hback.2] at hhi
  obtain ⟨hrts, -⟩ := (subroutineResults { t with pc := a, cycles := s.cycles + 6 }).2 _ _ _ _
    (busRead_of_byteAt hlo) (busRead_of_byteAt hhi)
  refine ⟨_, _, hjsr, rfl, hrts, ?_, fun b h0 h1 => hother b fun k hk => ?_⟩
  · have hpc : s.pc + 2 + 1 = s.pc + 3 := by rw [BitVec.add_assoc]; rfl
    rw [mkAddr_hiByte_loByte, hpc, ← hback.2, hregs]
  · match k, hk with
    | 0, _ => exact h0
    | 1, _ => exact h1

end Sys2Proof.Proofs.Control
end

section
/-! PROOF. The obligation of 40_step_and_addressing.md about the fetch: a step runs the instruction that the bytes at PC
decode to, and the operand bytes that the core does not read make no difference (R124, R141, R260). -/

namespace Sys2Proof.Proofs.Fetch
open Sys2Proof.Machine Sys2Proof.Proofs.Meanings Sys2Proof.Proofs.Results Sys2Proof.Proofs.Encoding
  Sys2Proof.Proofs.Control

variable {s t : State} {i : Instr} {op l k : Byte}

/-! ## Facts of the opcode table -/

theorem mode_of_brk (h : i.mnemonic = .brk) : i.entry.mode = .imp := by
  cases i
  case brk => rfl
  all_goals cases h

theorem meaning_of_mode_rel (h : i.entry.mode = .rel) : meaning i = .branch := by
  cases i
  case bpl | bmi | bvc | bvs | bcc | bcs | bne | beq => rfl
  all_goals cases h

theorem length_of_mode (h : i.entry.mode ≠ .imp) : i.entry.length = modeLength i.entry.mode := by
  rw [entry_length, if_neg fun e => h (mode_of_brk e)]

/-- Operand bytes past an instruction's length are not part of it. -/
theorem instrOf_eq_of_take {l' k' : Byte}
    (h : [op, l, k].take (entryOf op).length = [op, l', k'].take (entryOf op).length) : instrOf op l k = instrOf op l' k' := by
  rw [← encode_instrOf, ← encode_instrOf] at h
  have hdecode := decodeOfEncode _ [] (wellFormed_instrOf op l k)
  rw [h, decodeOfEncode _ [] (wellFormed_instrOf op l' k')] at hdecode
  exact (congrArg Prod.fst (Except.ok.inj hdecode)).symm

/-! ## The operand bytes that a step reads -/

/-- A step reads no operand byte, or all of them. -/
theorem operandReads_cases (op p : Byte) :
    operandReads (entryOf op) p = 0 ∨ (operandReads (entryOf op) p = 1 ∧ (entryOf op).length = 2) ∨
      (operandReads (entryOf op) p = 2 ∧ (entryOf op).length = 3) := by
  have hlen (h : (entryOf op).mode ≠ .imp) : (entryOf op).length = modeLength (entryOf op).mode := length_of_mode h
  cases hmode : (entryOf op).mode
  case imp | acc => left; simp only [operandReads, hmode]
  case rel =>
    simp only [operandReads, hmode]
    cases branchCond (entryOf op).mnemonic p
    · exact .inl rfl
    · exact .inr (.inl ⟨rfl, by rw [hlen (by rw [hmode]; decide), hmode]; rfl⟩)
  case imm | zp | zpx | zpy | izx | izy =>
    exact .inr (.inl ⟨by simp only [operandReads, hmode], by rw [hlen (by rw [hmode]; decide), hmode]; rfl⟩)
  case abs | abx | aby | ind =>
    exact .inr (.inr ⟨by simp only [operandReads, hmode], by rw [hlen (by rw [hmode]; decide), hmode]; rfl⟩)

/-- A branch that is not taken does not use its offset. -/
theorem exec_of_untaken {o : Int} (he : exec i = branch i.mnemonic o) (h : branchCond i.mnemonic s.p = false) :
    exec i s = .next (s.advance 2 2) := by
  rw [he, branch, plain]
  show (Res.ok () (branchBody (branchCond i.mnemonic s.p) o (s.advance 2 2))).toResult = _
  rw [h]
  rfl

/-- The operand bytes that the step does not read make no difference: BRK's padding (R124) and the offset of a branch that is
not taken (R260). -/
theorem exec_of_no_reads (h : operandReads (entryOf op) s.p = 0) (l k : Byte) :
    exec (instrOf op l k) s = exec (instrOf op 0 0) s := by
  have hentry (l k : Byte) : (instrOf op l k).entry = entryOf op := entry_instrOf op l k
  have hmnemonic (l k : Byte) : (instrOf op l k).mnemonic = (entryOf op).mnemonic := congrArg Entry.mnemonic (hentry l k)
  have hone (hlen : (entryOf op).length = 1) : instrOf op l k = instrOf op 0 0 := instrOf_eq_of_take (by rw [hlen]; rfl)
  have hlength := entry_length (instrOf op 0 0)
  rw [hentry, hmnemonic] at hlength
  cases hmode : (entryOf op).mode
  case imp =>
    by_cases hbrk : (entryOf op).mnemonic = .brk
    · have hexec (l k : Byte) := runs_stack (h := interruptEntry irqVector true)
        (meaning_of_mnemonic ((hmnemonic l k).trans hbrk))
      rw [hexec, hexec, hentry, hentry]
    · rw [hone (by rw [hlength, if_neg hbrk, hmode]; rfl)]
  case acc =>
    have hbrk : (entryOf op).mnemonic ≠ .brk := fun e => by
      have hmode' := mode_of_brk ((hmnemonic 0 0).trans e)
      rw [hentry, hmode] at hmode'
      cases hmode'
    rw [hone (by rw [hlength, if_neg hbrk, hmode]; rfl)]
  case rel =>
    have hcond : branchCond (entryOf op).mnemonic s.p = false := by
      simpa only [operandReads, hmode, Bool.toNat_eq_zero] using h
    have hexec (l k : Byte) : exec (instrOf op l k) s = .next (s.advance 2 2) := by
      obtain ⟨o, -, -, -, -, he⟩ := runs_branch (meaning_of_mode_rel ((congrArg Entry.mode (hentry l k)).trans hmode))
      exact exec_of_untaken he (by rw [hmnemonic, hcond])
    rw [hexec, hexec]
  all_goals simp only [operandReads, hmode, OfNat.ofNat_ne_zero, one_ne_zero] at h

/-! ## The step -/

/-- Where the bytes at PC are those of an instruction, the fetch gives one that runs alike, and changes nothing. -/
theorem fetch_of_bytes (h : ∀ n < (entryOf op).length, s.byteAt (s.pc + BitVec.ofNat 16 n) = [op, l, k][n]?) :
    ∃ j, fetch s = .ok j s ∧ exec j s = exec (instrOf op l k) s := by
  have hread (n : Nat) {v : Byte} (hn : n < (entryOf op).length) (hv : [op, l, k][n]? = some v) :
      busRead (s.pc + BitVec.ofNat 16 n) s = .ok v s := busRead_of_byteAt ((h n hn).trans hv)
  have hop : busRead s.pc s = .ok op s := by
    have hpos : 0 < (entryOf op).length := by rcases entryOf_length_cases op with h | h | h <;> omega
    have h0 := hread 0 hpos rfl
    rwa [show s.pc + BitVec.ofNat 16 0 = s.pc from BitVec.add_zero _] at h0
  rw [fetch, hop, Res.ok_bind, fetchOperands]
  rcases operandReads_cases op s.p with hreads | ⟨hreads, hlen⟩ | ⟨hreads, hlen⟩
  · rw [hreads]
    exact ⟨_, rfl, (exec_of_no_reads hreads l k).symm⟩
  · have hl : busRead (s.pc + 1) s = .ok l s := hread 1 (by rw [hlen]; decide) rfl
    have hinstr : instrOf op l 0 = instrOf op l k := instrOf_eq_of_take (by rw [hlen]; rfl)
    exact ⟨_, by simp only [hreads, hl, Res.ok_bind], congrArg (exec · s) hinstr⟩
  · have hl : busRead (s.pc + 1) s = .ok l s := hread 1 (by rw [hlen]; decide) rfl
    have hk : busRead (s.pc + 2) s = .ok k s := hread 2 (by rw [hlen]; decide) rfl
    exact ⟨_, by simp only [hreads, hl, hk, Res.ok_bind], rfl⟩

/-- Settles O6: the step is `exec` of the fetched instruction. -/
theorem stepRunsDecodedInstruction : Obligations.StepRunsDecodedInstruction := by
  intro s hrun hnmi hirq
  have hstep : step s = runInstruction s := by
    cases hintr : s.intr with
    | none => exact step_of_none hrun hintr
    | irq => exact step_of_masked hrun hintr (hirq hintr)
    | nmi => exact absurd hintr hnmi
  have hfetch (i : Instr) (t : State) (h : fetch s = .ok i t) : step s = exec i t := by rw [hstep, runInstruction, h]
  refine ⟨fun bytes i hdecode hbytes => ?_, hfetch⟩
  obtain ⟨op, l, k, rfl, rfl⟩ := decode_eq_ok hdecode
  obtain ⟨j, hj, hexec⟩ := fetch_of_bytes (s := s) (op := op) (l := l) (k := k) fun n hn => by
    have hlen : ([op, l, k].take (entryOf op).length ++ []).length = (entryOf op).length := by
      rcases entryOf_length_cases op with h | h | h <;> rw [h] <;> rfl
    rw [hbytes n (hn.trans_eq hlen.symm), List.append_nil, List.getElem?_take_of_lt hn]
  rw [hfetch j s hj, hexec]

end Sys2Proof.Proofs.Fetch
end

section
/-! PROOF. The obligations of 20_memory.md about the bus and the devices, and of the addressing modes
(40_step_and_addressing.md R150 to R162). -/

namespace Sys2Proof.Proofs.Bus
open Sys2Proof.Machine Sys2Proof.Proofs.Results

variable {s t : State}

/-! ## One access, by what the slot shows -/

theorem pageOf_eq {a : Addr} {page : Fin 256} (h : page.val = a.toNat / 256) : pageOf a = page :=
  Fin.ext ((hiByte_toNat a).trans h.symm)

theorem slotDevice_eq_none {page : Fin 256}
    (h : s.slots.get page = none ∨ ∃ d, s.slots.get page = some d ∧ s.devices[d]? = some none) :
    s.slotDevice page = none := by
  rcases h with h | ⟨d, hslot, hdev⟩
  · rw [State.slotDevice, h]
  · simp only [State.slotDevice, hslot, hdev]

/-- An empty slot reads 0x00 and drops writes (R73, R74). -/
theorem access_of_empty {a : Addr} (h : s.slotDevice (pageOf a) = none) (v : Byte) :
    busRead a s = .ok 0 s ∧ busWrite a v s = .ok () s := by
  simp only [busRead, busWrite, h, and_self]

/-- Settles O38, by what the page's slot shows. -/
theorem busAccess : Obligations.BusAccess := by
  intro s a v page hpage
  obtain rfl := pageOf_eq hpage
  refine ⟨fun h => access_of_empty (slotDevice_eq_none h) v, fun d kind size cells hslot hdev => ?memory,
    fun d id writable inner hslot hdev => ?foreign⟩
  case memory =>
    have hshown := slotDevice_some.2 ⟨hslot, hdev⟩
    refine ⟨fun hlt => ?_, fun hle => ?_, fun hk => ?_, fun hk hlt => ?_, fun hk hle => ?_⟩
    · simp only [busRead, hshown, if_pos hlt]
    · simp only [busRead, hshown, if_neg (Nat.not_lt.2 hle)]
    · simp only [busWrite, hshown, if_pos hk]
    · simp only [busWrite, hshown, if_neg hk, if_pos hlt]
      rfl
    · simp only [busWrite, hshown, if_neg hk, if_neg (Nat.not_lt.2 hle)]
  case foreign =>
    have hshown := slotDevice_some.2 ⟨hslot, hdev⟩
    refine ⟨⟨(Config.deviceRead id inner a).1, (Config.deviceRead id inner a).2, ?_⟩, fun hw => ?_,
      fun hw => ⟨Config.deviceWrite id inner a v, ?_⟩⟩
    · simp only [busRead, hshown]
      rfl
    · simp only [busWrite, hshown, hw, Bool.false_eq_true, if_false]
    · simp only [busWrite, hshown, hw, if_true]
      rfl

/-- Settles O39: a read of a readable byte is `busRead_of_byteAt`, a write is a store from the state itself. -/
theorem readAfterWrite : Obligations.ReadAfterWrite := by
  intro s t a v
  refine ⟨fun hread => ⟨readsTo_of_busRead hread, fun w hw => ?_⟩, fun hwrite => ⟨?_, fun hwf hwr => ?_⟩⟩
  · rw [busRead_of_byteAt hw] at hread
    cases hread
    exact ⟨rfl, rfl⟩
  · exact storesTo_of_busWrite (readsTo_refl s) rfl hwrite
  · exact busRead_of_byteAt (busWrite_same hwrite hwr hwf)

/-! ## Addressing modes -/

theorem add_zext16_toNat (a : Addr) (b : Byte) : (a + zext16 b).toNat = (a.toNat + b.toNat) % 65536 := by
  rw [BitVec.toNat_add, zext16_toNat]

theorem zext16_add_toNat (d b : Byte) : (zext16 (d + b)).toNat = (d.toNat + b.toNat) % 256 := by
  rw [zext16_toNat, BitVec.toNat_add]

/-- Settles O40: the sums of the resolvers by value. -/
theorem directModes : Obligations.DirectModes := by
  intro s d a
  refine ⟨zext16 (d + s.x), zext16 (d + s.y), a + zext16 s.x, a + zext16 s.y, zext16_add_toNat _ _, zext16_add_toNat _ _,
    add_zext16_toNat _ _, add_zext16_toNat _ _, ?zp, rfl, rfl, rfl, ?abx, ?aby⟩
  case zp => rw [resolve, zext16, BitVec.ofNat_toNat]
  case abx => rw [resolve, pageCross_eq]
  case aby => rw [resolve, pageCross_eq]

/-- The pointer's high byte is at the next address of its page (R150). -/
theorem nextInPage_toNat (p : Addr) : (nextInPage p).toNat = p.toNat / 256 * 256 + (p.toNat + 1) % 256 := by
  rw [nextInPage, mkAddr_toNat, hiByte_toNat, BitVec.toNat_add, loByte_toNat]
  change 256 * _ + (p.toNat % 256 + 1) % 256 = _
  omega

/-- A pointer read whose two bytes are memory's changes nothing. -/
theorem readPtr_of_byteAt {p : Addr} {lo hi : Byte} (hlo : s.byteAt p = some lo)
    (hhi : s.byteAt (nextInPage p) = some hi) : readPtr p s = .ok (mkAddr hi lo) s := by
  rw [readPtr, busRead_of_byteAt hlo, Res.ok_bind, busRead_of_byteAt hhi]
  rfl

/-- Settles O41: each resolver reads its pointer with `readPtr`. -/
theorem pointerModes : Obligations.PointerModes := by
  intro s d lo hi a ptr next base hnext hbase hlo hhi
  obtain rfl : next = nextInPage ptr := BitVec.eq_of_toNat_eq (hnext.trans (nextInPage_toNat ptr).symm)
  obtain rfl : base = mkAddr hi lo := BitVec.eq_of_toNat_eq (hbase.trans (mkAddr_toNat hi lo).symm)
  have hptr := readPtr_of_byteAt hlo hhi
  refine ⟨fun h => ?ind, fun h => ?izx, fun h ea hea => ?izy⟩
  case ind => rw [resolve, ← h, hptr, Res.ok_bind]
  case izx =>
    have hx : zext16 (d + s.x) = ptr := BitVec.eq_of_toNat_eq ((zext16_add_toNat d s.x).trans h.symm)
    rw [resolve, hx, hptr, Res.ok_bind]
  case izy =>
    have hd : zext16 d = ptr := BitVec.eq_of_toNat_eq ((zext16_toNat d).trans h.symm)
    have hea' : ea = mkAddr hi lo + zext16 s.y := BitVec.eq_of_toNat_eq (hea.trans (add_zext16_toNat _ _).symm)
    rw [resolve, hd, hptr, Res.ok_bind, pageCross_eq, hea']

/-! ## Devices -/

/-- A released device's slots show nothing, and the other slots show what they did (R76). -/
theorem slotDevice_release (d : Nat) (page : Fin 256) :
    (s.release d).slotDevice page = if s.slots.get page = some d then none else s.slotDevice page := by
  unfold State.slotDevice
  rw [State.release, State.setDevices_slots, State.setDevices_devices]
  cases s.slots.get page with
  | none => rfl
  | some e =>
    by_cases he : d = e
    · subst he
      rw [if_pos rfl]
      simp only [List.getElem?_set, if_true]
      split <;> simp_all
    · rw [if_neg fun h => he (Option.some.inj h).symm]
      simp only [List.getElem?_set, if_neg he]

/-- Settles O45, by what each slot shows after the release, and device by device for "reset all". -/
theorem releaseAndResetAll : Obligations.ReleaseAndResetAll := by
  intro s d
  refine ⟨fun a v h => access_of_empty ?_ v, fun page h => ?_, rfl, fun kind size cells h => ?_, rfl⟩
  · rw [slotDevice_release, if_pos h]
  · rw [slotDevice_release, if_neg h]
  · rw [State.resetAllDevices, State.setDevices_devices, List.getElem?_map, h]
    cases kind <;> rfl

end Sys2Proof.Proofs.Bus
end

section
/-! PROOF. The obligations of 10_state.md: what every step keeps, and which instruction may write what (R31 to R45). -/

namespace Sys2Proof.Proofs.WholeMachine
open Sys2Proof.Machine Sys2Proof.Proofs.Meanings Sys2Proof.Proofs.Results Sys2Proof.Proofs.Control

variable {i : Instr} {s t : State}

/-! ## What a step is made of -/

/-- Everything a step that answers a state can be. -/
theorem step_eq_next (h : step s = .next t) :
    (∃ vector, serviceInterrupt vector s = .ok () t) ∨ ∃ i u, fetch s = .ok i u ∧ exec i u = .next t := by
  rw [step] at h
  cases hevent : nextEvent s <;> simp only [hevent] at h
  case nmi => exact .inl ⟨_, Res.toResult_eq_next.1 h⟩
  case irq => exact .inl ⟨_, Res.toResult_eq_next.1 h⟩
  case instruction =>
    rw [runInstruction] at h
    cases hfetch : fetch s with
    | ok i u =>
      rw [hfetch] at h
      exact .inr ⟨i, u, rfl, h⟩
    | fault r =>
      rw [hfetch] at h
      cases h
  case locked => cases h

section
variable {okR : Reg → Prop} {okP : Byte → Byte → Prop} {R : State → State → Prop} (hR : Respected okR okP R)
include hR

/-- A fetch only reads. -/
theorem fetch_respects (h : fetch s = .ok i t) : R s t := by
  obtain ⟨op, u, hop, h⟩ := Res.bind_eq_ok.1 h
  refine hR.trans (hR.read hop) ?_
  unfold fetchOperands at h
  split at h
  · cases h
    exact hR.refl _
  · obtain ⟨l, w, hl, h⟩ := Res.bind_eq_ok.1 h
    cases h
    exact hR.read hl
  · obtain ⟨l, w, hl, h⟩ := Res.bind_eq_ok.1 h
    obtain ⟨k, w', hk, h⟩ := Res.bind_eq_ok.1 h
    cases h
    exact hR.trans (hR.read hl) (hR.read hk)

/-- A relation that every access, every register write and every instruction respects holds across every step. -/
theorem step_respects (hsp : okR .sp) (hI : ∀ p, okP p (putFlag .i true p)) (hintr : ∀ v s, R s (s.setIntr v))
    (hexec : ∀ {i s t}, exec i s = .next t → R s t) (h : step s = .next t) : R s t := by
  rcases step_eq_next h with ⟨vector, h⟩ | ⟨i, u, hfetch, h⟩
  · obtain ⟨_, u, hentry, h⟩ := Res.bind_eq_ok.1 h
    cases h
    exact hR.trans (hR.interruptEntry hsp hI hentry) (hR.trans (hR.addCycles _ _) (hintr _ _))
  · exact hR.trans (fetch_respects hR hfetch) (hexec h)

end

/-! ## The invariant -/

/-- A write of P that leaves U set. -/
def KeepsU (p q : Byte) : Prop := getFlag .u p = true → getFlag .u q = true

/-- Every instruction respects a relation that needs U kept: PLP and RTI set it, and no other instruction writes it (R37). -/
theorem exec_respects_keepsU {R : State → State → Prop} (hR : Respected (fun _ => True) KeepsU R)
    (hk : ∀ s, R s (s.setHalted true)) (h : exec i s = .next t) : R s t := by
  have hpopped (p v : Byte) : KeepsU p (statusOfPopped v) := fun _ => getFlag_popped .u v
  by_cases hplp : i.mnemonic = .plp
  · rw [runs_stack (h := pullP) (meaning_of_mnemonic hplp)] at h
    refine hR.plain (fun s t h => ?_) h
    obtain ⟨v, u, hpop, h⟩ := Res.bind_eq_ok.1 h
    cases h
    exact hR.trans (hR.pop trivial hpop) (hR.setP (hpopped _ _))
  by_cases hrti : i.mnemonic = .rti
  · rw [runs_stack (h := interruptReturn) (meaning_of_mnemonic hrti)] at h
    exact hR.plain (fun _ _ h => hR.interruptReturn trivial hpopped h) h
  have hwriters : i.mnemonic ∉ flagWriters .u := by simp [flagWriters, hplp, hrti]
  exact exec_respects hR (fun _ _ => trivial) (fun p q hsame hp => (hsame .u hwriters).trans hp)
    (fun hm => absurd hm (by simp [hplp, hrti])) (fun _ => hk) h

/-- U stays set along every access and along every write of P that leaves it set. -/
theorem respected_keepsU : Respected (fun _ => True) KeepsU fun s t => KeepsU s.p t.p where
  refl _ h := h
  trans h h' hs := h' (h hs)
  read h := by rw [(busRead_keeps h).1]; exact id
  write h := by rw [(busWrite_keeps h).1]; exact id
  setA _ _ _ h := h
  setX _ _ _ h := h
  setY _ _ _ h := h
  setSP _ _ _ h := h
  setPC _ _ h := h
  addCycles _ _ h := h
  setP h := h

theorem inv_congr (hp : t.p = s.p) (hm : t.memoryWf = s.memoryWf) (h : s.Inv) : t.Inv := by
  rw [State.Inv, hp, hm]
  exact h

/-- Every access and every write of a register keeps the invariant, and so does a write of P that leaves U set. -/
theorem respected_inv : Respected (fun _ => True) KeepsU fun s t => s.Inv → t.Inv where
  refl _ h := h
  trans h h' hs := h' (h hs)
  read h := inv_congr (by rw [(busRead_keeps h).1]; rfl) (memoryWf_congr (busRead_keeps h).2)
  write h hs := ⟨by rw [(busWrite_keeps h).1]; exact hs.1, busWrite_memoryWf h hs.2⟩
  setA _ _ _ h := h
  setX _ _ _ h := h
  setY _ _ _ h := h
  setSP _ _ _ h := h
  setPC _ _ h := h
  addCycles _ _ h := h
  setP hp h := ⟨hp h.1, h.2⟩

theorem inv_of_step (hs : s.Inv) (h : step s = .next t) : t.Inv :=
  step_respects respected_inv trivial (fun p hp => (getFlag_putFlag .i .u true p).trans hp) (fun _ _ h => h)
    (exec_respects_keepsU respected_inv fun _ h => h) h hs

/-- Settles O48. -/
theorem invariantKeptByStep : Obligations.InvariantKeptByStep := fun _ _ => inv_of_step

/-! ## The platform -/

/-- What no step changes in a device: all but the buffer of a writable memory device and the inner state of another device. -/
def fixedPart : Device → Device
  | .memory .readOnly size cells => .memory .readOnly size cells
  | .memory .tracked size _ => .memory .tracked size []
  | .memory .untracked size _ => .memory .untracked size []
  | .foreign id writable _ => .foreign id writable 0

theorem fixedPart_memory {kind : MemKind} (h : kind ≠ .readOnly) (size : Nat) (cells cells' : Memory) :
    fixedPart (.memory kind size cells') = fixedPart (.memory kind size cells) := by
  cases kind
  case readOnly => exact absurd rfl h
  all_goals rfl

/-- The page table and what is fixed in the devices are the same. -/
def SamePlatform (s t : State) : Prop :=
  t.slots = s.slots ∧ t.devices.map (Option.map fixedPart) = s.devices.map (Option.map fixedPart)

theorem samePlatform_busRead {a : Addr} {v : Byte} (h : busRead a s = .ok v t) : SamePlatform s t := by
  rcases busRead_cases h with ⟨-, -, rfl⟩ | ⟨d, k, n, c, -, -, -, rfl⟩ | ⟨d, id, w, inner, hs, -, rfl⟩
  · exact ⟨rfl, rfl⟩
  · exact ⟨rfl, rfl⟩
  · exact ⟨rfl, putDevice_view fixedPart (slotDevice_some.1 hs).2 rfl⟩

theorem samePlatform_busWrite {a : Addr} {v : Byte} (h : busWrite a v s = .ok () t) : SamePlatform s t := by
  rcases busWrite_cases h with ⟨-, rfl, -⟩ | ⟨d, k, n, c, hs, hk, -, rfl⟩ | ⟨d, id, inner, hs, rfl⟩
  · exact ⟨rfl, rfl⟩
  · exact ⟨rfl, putDevice_view fixedPart (slotDevice_some.1 hs).2 (fixedPart_memory hk n c _)⟩
  · exact ⟨rfl, putDevice_view fixedPart (slotDevice_some.1 hs).2 rfl⟩

/-- Every access keeps the platform, and no register write touches it. -/
theorem respected_samePlatform : Respected (fun _ => True) (fun _ _ => True) SamePlatform where
  refl _ := ⟨rfl, rfl⟩
  trans h h' := ⟨h'.1.trans h.1, h'.2.trans h.2⟩
  read := samePlatform_busRead
  write := samePlatform_busWrite
  setA _ _ _ := ⟨rfl, rfl⟩
  setX _ _ _ := ⟨rfl, rfl⟩
  setY _ _ _ := ⟨rfl, rfl⟩
  setSP _ _ _ := ⟨rfl, rfl⟩
  setPC _ _ := ⟨rfl, rfl⟩
  addCycles _ _ := ⟨rfl, rfl⟩
  setP _ := ⟨rfl, rfl⟩

theorem samePlatform_of_step (h : step s = .next t) : SamePlatform s t :=
  step_respects respected_samePlatform trivial (fun _ => trivial) (fun _ _ => ⟨rfl, rfl⟩)
    (exec_respects respected_samePlatform (fun _ _ => trivial) (fun _ _ _ => trivial) (fun _ _ _ => trivial)
      fun _ _ => ⟨rfl, rfl⟩) h

/-- The device that stands under a number has the fixed part of the one that stood there. -/
theorem SamePlatform.getElem? (h : SamePlatform s t) (d : Nat) :
    (t.devices[d]?).map (Option.map fixedPart) = (s.devices[d]?).map (Option.map fixedPart) := by
  simpa using congrArg (fun l => l[d]?) h.2

theorem SamePlatform.present {dev : Device} {d : Nat} (h : SamePlatform s t) (hd : s.devices[d]? = some (some dev)) :
    ∃ dev', t.devices[d]? = some (some dev') ∧ fixedPart dev' = fixedPart dev := by
  have hdev := h.getElem? d
  rw [hd, Option.map_some, Option.map_some, Option.map_eq_some_iff] at hdev
  obtain ⟨o, ho, hfixed⟩ := hdev
  obtain ⟨dev', rfl, hfixed⟩ := Option.map_eq_some_iff.1 hfixed
  exact ⟨dev', ho, Option.some.inj hfixed⟩

theorem memory_of_fixedPart {dev : Device} {kind : MemKind} {size : Nat} {cells : Memory}
    (h : fixedPart dev = fixedPart (.memory kind size cells)) :
    ∃ cells', dev = .memory kind size cells' ∧ (kind = .readOnly → cells' = cells) := by
  rcases dev with ⟨kind', size', cells'⟩ | ⟨id, w, inner⟩
  · cases kind <;> cases kind' <;> simp_all [fixedPart]
  · cases kind <;> cases h

theorem foreign_of_fixedPart {dev : Device} {id inner : Nat} {w : Bool} (h : fixedPart dev = fixedPart (.foreign id w inner)) :
    ∃ inner', dev = .foreign id w inner' := by
  rcases dev with ⟨kind', size', cells'⟩ | ⟨id', w', inner'⟩
  · cases kind' <;> cases h
  · cases h
    exact ⟨inner', rfl⟩

/-- Settles O54, device by device from the fixed part. -/
theorem stepKeepsPlatform : Obligations.StepKeepsPlatform := by
  intro s t h
  have hsame := samePlatform_of_step h
  have hlength : t.devices.length = s.devices.length := by simpa using congrArg List.length hsame.2
  refine ⟨hsame.1, hlength, fun d hd => ?released, fun d kind size cells hd => ?memory,
    fun d id writable inner hd => ?foreign⟩
  case released =>
    have hdev := hsame.getElem? d
    rw [hd, Option.map_some, Option.map_none, Option.map_eq_some_iff] at hdev
    obtain ⟨o, ho, hnone⟩ := hdev
    rw [ho, Option.map_eq_none_iff.1 hnone]
  case memory =>
    obtain ⟨dev, hdev, hfixed⟩ := hsame.present hd
    obtain ⟨cells', rfl, hcells⟩ := memory_of_fixedPart hfixed
    exact ⟨cells', hdev, hcells⟩
  case foreign =>
    obtain ⟨dev, hdev, hfixed⟩ := hsame.present hd
    obtain ⟨inner', rfl⟩ := foreign_of_fixedPart hfixed
    exact ⟨inner', hdev⟩

/-! ## Writers -/

/-- What a bus access leaves alone: every field but the devices. -/
theorem fields_of_busRead {α : Type} (f : State → α) (hf : ∀ s ds, f (s.setDevices ds) = f s) {a : Addr} {v : Byte}
    (h : busRead a s = .ok v t) : f t = f s := by
  rw [(busRead_keeps h).1, hf]

theorem fields_of_busWrite {α : Type} (f : State → α) (hf : ∀ s ds, f (s.setDevices ds) = f s) {a : Addr} {v : Byte}
    (h : busWrite a v s = .ok () t) : f t = f s := by
  rw [(busWrite_keeps h).1, hf]

/-- A field of the state keeps its value along every access and along every update that leaves it alone. -/
theorem respected_field {α : Type} {okR : Reg → Prop} {okP : Byte → Byte → Prop} (f : State → α)
    (hdevices : ∀ s ds, f (s.setDevices ds) = f s := by intros; rfl)
    (ha : okR .a → ∀ v s, f (s.setA v) = f s := by intros; rfl)
    (hx : okR .x → ∀ v s, f (s.setX v) = f s := by intros; rfl)
    (hy : okR .y → ∀ v s, f (s.setY v) = f s := by intros; rfl)
    (hsp : okR .sp → ∀ v s, f (s.setSP v) = f s := by intros; rfl)
    (hpc : ∀ v s, f (s.setPC v) = f s := by intros; rfl)
    (hcycles : ∀ n s, f (s.addCycles n) = f s := by intros; rfl)
    (hp : ∀ {p s}, okP s.p p → f (s.setP p) = f s := by intros; rfl) :
    Respected okR okP fun s t => f t = f s where
  refl _ := rfl
  trans h h' := h'.trans h
  read h := fields_of_busRead f hdevices h
  write h := fields_of_busWrite f hdevices h
  setA := ha
  setX := hx
  setY := hy
  setSP := hsp
  setPC := hpc
  addCycles := hcycles
  setP := hp

section
variable (h : exec i s = .next t)
include h

/-- An instruction that is not in a register's writer table keeps the register (R31 to R34). -/
theorem register_of_exec {r : Reg} {f : State → Byte} (hf : Respected (· ≠ r) (fun _ _ => True) fun s t => f t = f s)
    (hk : ∀ s, f (s.setHalted true) = f s) (hr : i.mnemonic ∉ registerWriters r) : f t = f s :=
  exec_respects hf (fun _ hr' e => hr (e ▸ hr')) (fun _ _ _ => trivial) (fun _ _ _ => trivial) (fun _ => hk) h

/-- An instruction that is not in a flag's writer table keeps the flag (R37 to R39). -/
theorem flag_of_exec {g : Flag} (hg : i.mnemonic ∉ flagWriters g) : getFlag g t.p = getFlag g s.p := by
  have hplp : i.mnemonic ∉ [Mnemonic.plp, .rti] := fun hm => hg (by
    have hall : ∀ m ∈ [Mnemonic.plp, .rti], m ∈ flagWriters g := by cases g <;> decide
    exact hall _ hm)
  exact exec_respects (okR := fun _ => True) (okP := fun p q => getFlag g q = getFlag g p)
    (respected_field (fun s => getFlag g s.p) (hp := fun hp => hp)) (fun _ _ => trivial)
    (fun p q hsame => hsame g hg) (fun hm => absurd hm hplp) (fun _ _ => rfl) h

end

/-- Settles O55: one kept field for each clause. -/
theorem writersOfRegistersAndFlags : Obligations.WritersOfRegistersAndFlags := by
  intro i s t h
  refine ⟨register_of_exec h (f := State.a) ?a fun _ => rfl, register_of_exec h (f := State.x) ?x fun _ => rfl,
    register_of_exec h (f := State.y) ?y fun _ => rfl, register_of_exec h (f := State.sp) ?sp fun _ => rfl,
    fun g => flag_of_exec h, ?intr, fun hm => ?halted, ?unused⟩
  case a => exact respected_field State.a (ha := fun e => absurd rfl e)
  case x => exact respected_field State.x (hx := fun e => absurd rfl e)
  case y => exact respected_field State.y (hy := fun e => absurd rfl e)
  case sp => exact respected_field State.sp (hsp := fun e => absurd rfl e)
  case intr =>
    exact exec_respects (okR := fun _ => True) (okP := fun _ _ => True) (respected_field State.intr) (fun _ _ => trivial)
      (fun _ _ _ => trivial) (fun _ _ _ => trivial) (fun _ _ => rfl) h
  case halted =>
    exact exec_respects (okR := fun _ => True) (okP := fun _ _ => True) (respected_field State.halted)
      (fun _ _ => trivial) (fun _ _ _ => trivial) (fun _ _ _ => trivial) (fun e => absurd e hm) h
  case unused => exact exec_respects_keepsU respected_keepsU (fun _ h => h) h

end Sys2Proof.Proofs.WholeMachine
end

section
/-! PROOF. The obligations about faults: only an access out of range of its device stops an instruction, and on a covered
platform nothing does (00_scope.md R12, 20_memory.md R83, 60_exceptions.md R385). -/

namespace Sys2Proof.Proofs.Safety
open Sys2Proof.Machine Sys2Proof.Proofs.Meanings Sys2Proof.Proofs.Results Sys2Proof.Proofs.Control

variable {i : Instr} {s t : State}

/-! ## Every meaning faults only out of range -/

/-- What a meaning does apart from its form's accesses: register updates, and actions that fault only out of range. -/
def FaultsOnlyOutOfRange : Meaning → Prop
  | .registers f => OffBus f
  | .stack h => FaultsOutOfRange h
  | .read f => ∀ v, OffBus (f v)
  | .store _ => True
  | .modify _ => True
  | .combine _ g => ∀ v, OffBus (g v)
  | .address h => ∀ ea, FaultsOutOfRange (h ea)
  | .branch => True

theorem faults_callTo (ea : Addr) : FaultsOutOfRange (callTo ea) :=
  .bind (.dep (g := fun s => s.pc - 1) (h := pushAddr) .pushAddr) fun _ => .unit fun _ => ⟨rfl, rfl⟩

theorem faults_storeTas (ea : Addr) : FaultsOutOfRange (storeTas ea) :=
  .dep (g := fun s => (s.a &&& s.x, s.y)) (h := fun r s => busWrite ea (r.1 &&& baseHighPlusOne ea r.2) (s.setSP r.1))
    fun _ => .after (.write _ _) fun _ => ⟨rfl, rfl⟩

theorem faults_pull (f : Byte → State → State) (hf : ∀ v, OffBus (f v)) :
    FaultsOutOfRange (fun s => (pop s).bind fun v s => .ok () (f v s)) :=
  .bind .pop fun v => .unit (hf v)

theorem mnemonicMeaning_faults (m : Mnemonic) : FaultsOnlyOutOfRange (mnemonicMeaning m) := by
  cases m
  case adc | alr | anc | and | arr | axs | bit | cmp | cpx | cpy | eor | las | lax | lda | ldx | ldy | nop | ora | sbc | xaa =>
    exact fun _ _ => ⟨rfl, rfl⟩
  case dcp | isc | rla | rra | slo | sre => exact fun _ _ => ⟨rfl, rfl⟩
  case clc | cld | cli | clv | dex | dey | inx | iny | kil | sec | sed | sei | tax | tay | tsx | txa | txs | tya =>
    exact fun _ => ⟨rfl, rfl⟩
  case brk => exact .interruptEntry _ _
  case rti => exact .interruptReturn
  case rts => exact .bind .popAddr fun _ => .unit fun _ => ⟨rfl, rfl⟩
  case pha => exact .dep (g := State.a) (h := push) .push
  case php => exact .dep (g := fun s => pushedByInstruction s.p) (h := push) .push
  case pla => exact faults_pull loadA fun _ _ => ⟨rfl, rfl⟩
  case plp => exact faults_pull (fun v s => s.setP (statusOfPopped v)) fun _ _ => ⟨rfl, rfl⟩
  case jmp => exact fun _ => .unit fun _ => ⟨rfl, rfl⟩
  case jsr => exact faults_callTo
  case tas => exact faults_storeTas
  all_goals trivial

theorem meaning_faults (i : Instr) : FaultsOnlyOutOfRange (meaning i) := by
  unfold meaning
  split
  · exact fun _ _ => ⟨rfl, rfl⟩
  · split
    · exact fun _ => ⟨rfl, rfl⟩
    · exact mnemonicMeaning_faults _

/-! ## Every form faults only out of range -/

theorem offBus_advance (base len : Nat) : OffBus (State.advance base len) := fun _ => ⟨rfl, rfl⟩

/-- The body of an instruction with an effective address. -/
theorem faults_addressed {base : Nat} {xb : Bool} {m : MemOperand} {h : Addr → State → Res Unit}
    (hh : ∀ ea, FaultsOutOfRange (h ea)) :
    ∃ body, FaultsOutOfRange body ∧ addressed base xb m h = fun s => (body s).toResult :=
  ⟨_, .bind (.resolve m) fun r => .bind (.after (hh r.1) (offBus_advance base m.length))
    fun _ => .unit (f := State.addCycles (r.2 && xb).toNat) fun _ => ⟨rfl, rfl⟩, rfl⟩

theorem faults_plain {base len : Nat} {h : State → Res Unit} (hh : FaultsOutOfRange h) :
    ∃ body, FaultsOutOfRange body ∧ plain base len h = fun s => (body s).toResult :=
  ⟨_, .after hh (offBus_advance base len), rfl⟩

theorem faults_readThen (f : Byte → State → State) (hf : ∀ v, OffBus (f v)) (ea : Addr) :
    FaultsOutOfRange (fun s => (busRead ea s).bind fun v s => .ok () (f v s)) :=
  .bind (.read ea) fun v => .unit (hf v)

theorem faults_combine (f : Byte → Byte → Byte × Byte) (g : Byte → State → State) (hg : ∀ v, OffBus (g v)) (ea : Addr) :
    FaultsOutOfRange (fun s => (busRead ea s).bind fun v s =>
      (busWrite ea (f v s.p).1 (s.setP (f v s.p).2)).bind fun _ t => .ok () (g (f v s.p).1 t)) :=
  .bind (.read ea) fun v => .dep (g := fun s => f v s.p)
    (h := fun r s => (busWrite ea r.1 (s.setP r.2)).bind fun _ t => .ok () (g r.1 t)) fun r =>
      .bind (.after (.write ea r.1) fun _ => ⟨rfl, rfl⟩) fun _ => .unit (hg r.1)

theorem offBus_branchBody (taken : Bool) (o : Int) : OffBus (branchBody taken o) := by
  intro s
  cases taken <;> exact ⟨rfl, rfl⟩

/-- Every instruction is a bus action that faults only out of range. -/
theorem exec_faults (i : Instr) : ∃ body, FaultsOutOfRange body ∧ exec i = fun s => (body s).toResult := by
  have hmeaning := meaning_faults i
  have hruns := runs_meaning i
  generalize meaning i = M at hmeaning hruns
  generalize exec i = e at hruns ⊢
  cases hruns with
  | registers f _ => exact faults_plain (.unit hmeaning)
  | stack h => exact faults_plain hmeaning
  | immediate f _ _ _ => exact faults_plain (.unit (hmeaning _))
  | read f _ => exact faults_addressed (faults_readThen f hmeaning)
  | store v _ _ => exact faults_addressed fun ea => .dep (g := v ea) (h := fun b => busWrite ea b) (.write ea)
  | accumulator f _ _ =>
    exact faults_plain (.unit (f := fun s => (s.setP (f s.a s.p).2).setA (f s.a s.p).1) fun _ => ⟨rfl, rfl⟩)
  | modify f _ _ => exact faults_addressed fun ea => .bind (.read ea) fun v => .modify ea f v
  | combine f g _ _ => exact faults_addressed (faults_combine f g hmeaning)
  | address h _ _ => exact faults_addressed hmeaning
  | branch o _ _ _ =>
    exact faults_plain (.unit (f := fun s => branchBody (branchCond i.mnemonic s.p) o s) fun s => offBus_branchBody _ o s)

theorem toResult_eq_fault {r : Res Unit} {f : Fault} (h : r.toResult = .fault f) : r = .fault f := by
  cases r <;> cases h
  rfl

/-- Settles O51: an instruction is a bus action, which never refuses and faults only out of range. -/
theorem onlyOutOfRangeFaults : Obligations.OnlyOutOfRangeFaults := by
  intro i s
  obtain ⟨body, hbody, he⟩ := exec_faults i
  rw [he]
  exact ⟨fun r => Res.toResult_ne_refused _ r, fun r h => hbody.fault s r (toResult_eq_fault h)⟩

/-! ## Covered platforms -/

/-- On a covered platform an action that faults only out of range completes, and the platform stays covered. -/
theorem completes_of_covered {α : Type} {body : State → Res α} (hbody : FaultsOutOfRange body) (hs : s.Covered) :
    ∃ v t, body s = .ok v t ∧ t.Covered := by
  cases h : body s with
  | ok v t =>
    obtain ⟨hslots, hshapes⟩ := hbody.keeps s v t h
    exact ⟨v, t, rfl, (covered_congr hslots hshapes).2 hs⟩
  | fault r =>
    obtain ⟨a, -, ha⟩ := hbody.fault s r h
    rw [inRange_of_covered hs a] at ha
    cases ha

theorem toResult_of_covered {body : State → Res Unit} (hbody : FaultsOutOfRange body) (hs : s.Covered) :
    ∃ t, (body s).toResult = .next t ∧ t.Covered := by
  obtain ⟨_, t, h, ht⟩ := completes_of_covered hbody hs
  exact ⟨t, congrArg Res.toResult h, ht⟩

theorem exec_of_covered (i : Instr) (hs : s.Covered) : ∃ t, exec i s = .next t ∧ t.Covered := by
  obtain ⟨body, hbody, he⟩ := exec_faults i
  rw [he]
  exact toResult_of_covered hbody hs

theorem faults_ok {α : Type} (v : α) : FaultsOutOfRange fun s => Res.ok v s := .pure (v := fun _ => v) fun _ => ⟨rfl, rfl⟩

theorem faults_fetchOperands (op : Byte) : FaultsOutOfRange (fetchOperands op) := by
  have hone (pc : Addr) : FaultsOutOfRange fun s => (busRead pc s).bind fun l s => .ok (instrOf op l 0) s :=
    .bind (.read pc) fun l => faults_ok (instrOf op l 0)
  have htwo (pc : Addr) : FaultsOutOfRange fun s => (busRead pc s).bind fun l s =>
      (busRead (s.pc + 2) s).bind fun h s => .ok (instrOf op l h) s :=
    .bind (.read pc) fun l => .dep (g := fun s => s.pc + 2)
      (h := fun a s => (busRead a s).bind fun h s => .ok (instrOf op l h) s)
      fun a => .bind (.read a) fun h => faults_ok (instrOf op l h)
  refine ⟨fun s r h => ?_, fun s j t h => ?_⟩ <;> unfold fetchOperands at h <;> split at h
  · cases h
  · exact (hone _).fault s r h
  · exact (htwo _).fault s r h
  · cases h
    exact ⟨rfl, rfl⟩
  · exact (hone _).keeps s j t h
  · exact (htwo _).keeps s j t h

theorem faults_fetch : FaultsOutOfRange fetch :=
  .bind (.dep (g := State.pc) (h := busRead) .read) faults_fetchOperands

theorem faults_serviceInterrupt (vector : Addr) : FaultsOutOfRange (serviceInterrupt vector) :=
  .bind (.interruptEntry vector false) fun _ => .unit fun _ => ⟨rfl, rfl⟩

theorem runInstruction_of_covered (hs : s.Covered) : ∃ t, runInstruction s = .next t ∧ t.Covered := by
  obtain ⟨i, u, hfetch, hu⟩ := completes_of_covered faults_fetch hs
  rw [runInstruction, hfetch]
  exact exec_of_covered i hu

theorem step_of_covered (hs : s.Covered) (hrun : s.halted = false) : ∃ t, step s = .next t ∧ t.Covered := by
  cases hintr : s.intr with
  | nmi =>
    rw [step_of_nmi hrun hintr]
    exact toResult_of_covered (faults_serviceInterrupt _) hs
  | none =>
    rw [step_of_none hrun hintr]
    exact runInstruction_of_covered hs
  | irq =>
    cases hi : getFlag .i s.p with
    | false =>
      rw [step_of_irq hrun hintr hi]
      exact toResult_of_covered (faults_serviceInterrupt _) hs
    | true =>
      rw [step_of_masked hrun hintr hi]
      exact runInstruction_of_covered hs

/-- Settles O50: every access of a covered platform is in range, and no access changes what covers it. -/
theorem noFaultOnCoveredPlatform : Obligations.NoFaultOnCoveredPlatform := by
  intro s hs
  exact ⟨fun i => exec_of_covered i hs, step_of_covered hs⟩

end Sys2Proof.Proofs.Safety
end

section
/-! PROOF. The obligations about what no step reads: the cycle counter (00_scope.md R14, 10_state.md R42) and the Break bit of
P (10_state.md R38). -/

namespace Sys2Proof.Proofs.Noninterference
open Sys2Proof.Machine Sys2Proof.Proofs.Meanings Sys2Proof.Proofs.Results

variable {i : Instr} {s t : State}

/-! ## Functions of the status byte -/

section
variable {p q : Byte} {w : Bool}

theorem blindPair_flags (r : Byte) {f : Byte → Byte} (hf : BlindFlags f) : BlindPair fun p => (r, f p) :=
  fun w p q h => ⟨rfl, hf w p q h⟩

theorem blindFlags_comp {f g : Byte → Byte} (hf : BlindFlags f) (hg : BlindFlags g) : BlindFlags fun p => f (g p) :=
  fun w p q h => hf w _ _ (hg w p q h)

theorem blindFlags_shifted (r : Byte) (on : Bool) : BlindFlags fun p => setZN r (putFlag .c on p) :=
  blindFlags_comp (blindFlags_setZN r) (blindFlags_put .c on)

/-- A byte that a rotation makes depends on P through the carry alone. -/
theorem blindPair_carry {f : Bool → Byte → Byte × Byte} (hf : ∀ c, BlindPair (f c)) : BlindPair fun p => f (getFlag .c p) p := by
  intro w p q h
  dsimp only
  rw [h.get (g := .c) (by decide)]
  exact hf _ w p q h

theorem blindPair_asl (v : Byte) : BlindPair (aslByte v) := blindPair_flags _ (blindFlags_shifted _ _)

theorem blindPair_lsr (v : Byte) : BlindPair (lsrByte v) := blindPair_flags _ (blindFlags_shifted _ _)

theorem blindPair_rol (v : Byte) : BlindPair (rolByte v) :=
  blindPair_carry (f := fun c p => ((v <<< 1) ||| byteOfBit c, setZN ((v <<< 1) ||| byteOfBit c) (putFlag .c (v.getLsbD 7) p)))
    fun _ => blindPair_flags _ (blindFlags_shifted _ _)

theorem blindPair_ror (v : Byte) : BlindPair (rorByte v) :=
  blindPair_carry (f := fun c p =>
      ((v >>> 1) ||| (byteOfBit c <<< 7), setZN ((v >>> 1) ||| (byteOfBit c <<< 7)) (putFlag .c (v.getLsbD 0) p)))
    fun _ => blindPair_flags _ (blindFlags_shifted _ _)

theorem blindPair_inc (v : Byte) : BlindPair (incByte v) := blindPair_flags _ (blindFlags_setZN _)

theorem blindPair_dec (v : Byte) : BlindPair (decByte v) := blindPair_flags _ (blindFlags_setZN _)

theorem blindPair_addWithCarry (a v : Byte) : BlindPair (addWithCarry a v) := by
  intro w p q h
  unfold addWithCarry
  rw [h.get (g := .d) (by decide), h.get (g := .c) (by decide)]
  split
  · exact blindPair_addDecimal a v _ w p q h
  · exact blindPair_addBinary a v _ w p q h

theorem blindPair_subWithBorrow (a v : Byte) : BlindPair (subWithBorrow a v) := by
  intro w p q h
  unfold subWithBorrow
  rw [h.get (g := .d) (by decide), h.get (g := .c) (by decide)]
  split
  · exact blindPair_subDecimal a v _ w p q h
  · exact blindPair_addBinary a _ _ w p q h

theorem blindPair_anc (a v : Byte) : BlindPair (ancByte a v) :=
  blindPair_flags _ (blindFlags_comp (blindFlags_put .c _) (blindFlags_setZN _))

theorem blindPair_alr (a v : Byte) : BlindPair (alrByte a v) := blindPair_lsr _

theorem blindPair_arr (a v : Byte) : BlindPair (arrByte a v) := by
  intro w p q h
  unfold arrByte
  rw [h.get (g := .d) (by decide), h.get (g := .c) (by decide)]
  split
  · exact ⟨rfl, blindFlags_put _ _ _ _ _ (blindFlags_put _ _ _ _ _ (blindFlags_setZN _ _ _ _ h))⟩
  · exact ⟨rfl, blindFlags_put _ _ _ _ _ (blindFlags_put _ _ _ _ _ (blindFlags_setZN _ _ _ _ h))⟩

theorem blindFlags_compare (r m : Byte) : BlindFlags (compareFlags r m) := blindFlags_shifted _ _

theorem blindFlags_bit (a m : Byte) : BlindFlags (bitFlags a m) :=
  blindFlags_comp (f := putFlag .v _) (blindFlags_put _ _) (blindFlags_comp (blindFlags_put .n _) (blindFlags_put .z _))

end

/-! ## Updates -/

/-- A register that takes a byte and the flags that follow it. -/
theorem blind_load {f : Byte → Byte} {set : State → State} (hf : BlindFlags f) (hset : BlindUpdate set)
    (hp : ∀ s, (set s).p = s.p) : BlindUpdate fun s => (set s).setP (f s.p) := by
  have h := BlindUpdate.comp (blind_flags hf) hset
  simpa only [hp] using h

theorem blind_loadA (v : Byte) : BlindUpdate (loadA v) := blind_load (blindFlags_setZN v) (blind_setA v) fun _ => rfl

theorem blind_loadX (v : Byte) : BlindUpdate (loadX v) := blind_load (blindFlags_setZN v) (blind_setX v) fun _ => rfl

theorem blind_loadY (v : Byte) : BlindUpdate (loadY v) := blind_load (blindFlags_setZN v) (blind_setY v) fun _ => rfl

theorem blind_loadAX (v : Byte) : BlindUpdate (loadAX v) :=
  blind_load (blindFlags_setZN v) (.comp (blind_setX v) (blind_setA v)) fun _ => rfl

/-- A result for A and P that does not read Break. -/
theorem blind_aluA {f : Byte → Byte → Byte → Byte × Byte} (hf : ∀ a v, BlindPair (f a v)) (v : Byte) :
    BlindUpdate fun s => (s.setA (f s.a v s.p).1).setP (f s.a v s.p).2 :=
  .dep (g := State.a) (h := fun a s => (s.setA (f a v s.p).1).setP (f a v s.p).2) (fun _ _ _ => rfl)
    fun a => blind_pair (hf a v)

/-- Flags that follow a register. -/
theorem blind_flagsOf {g : State → Byte} {f : Byte → Byte → Byte} (hg : ∀ s p c, g { s with p := p, cycles := c } = g s)
    (hf : ∀ b, BlindFlags (f b)) : BlindUpdate fun s => s.setP (f (g s) s.p) :=
  .dep (h := fun b s => s.setP (f b s.p)) hg fun b => blind_flags (hf b)

/-! ## Every meaning is blind -/

/-- What a meaning does apart from its form's accesses reads neither the cycle counter nor Break. -/
def IsBlind : Meaning → Prop
  | .registers f => BlindUpdate f
  | .stack h => Blind h
  | .read f => ∀ v, BlindUpdate (f v)
  | .store v => ∀ ea s p c, v ea { s with p := p, cycles := c } = v ea s
  | .modify f => ∀ v, BlindPair (f v)
  | .combine f g => (∀ v, BlindPair (f v)) ∧ ∀ v, BlindUpdate (g v)
  | .address h => ∀ ea, Blind (h ea)
  | .branch => True

theorem blind_andA (v : Byte) : BlindUpdate (andA v) := .dep (g := fun s => s.a &&& v) (fun _ _ _ => rfl) blind_loadA
theorem blind_orA (v : Byte) : BlindUpdate (orA v) := .dep (g := fun s => s.a ||| v) (fun _ _ _ => rfl) blind_loadA
theorem blind_eorA (v : Byte) : BlindUpdate (eorA v) := .dep (g := fun s => s.a ^^^ v) (fun _ _ _ => rfl) blind_loadA
theorem blind_cmpA (v : Byte) : BlindUpdate (cmpA v) :=
  blind_flagsOf (g := State.a) (fun _ _ _ => rfl) fun r => blindFlags_compare r v

theorem blind_las (v : Byte) : BlindUpdate (loadLas v) :=
  .dep (g := fun s => v &&& s.sp) (h := fun r s => (((s.setA r).setX r).setSP r).setP (setZN r s.p)) (fun _ _ _ => rfl)
    fun r => blind_load (blindFlags_setZN r) (.comp (blind_setSP r) (.comp (blind_setX r) (blind_setA r))) fun _ => rfl

theorem blind_axs (v : Byte) : BlindUpdate (axsX v) :=
  .dep (g := fun s => s.a &&& s.x) (h := fun r s => (s.setX (r - v)).setP (compareFlags r v s.p)) (fun _ _ _ => rfl)
    fun r => blind_load (blindFlags_compare r v) (blind_setX _) fun _ => rfl

theorem blind_pull {f : Byte → State → State} (hf : ∀ v, BlindUpdate (f v)) :
    Blind fun s => (pop s).bind fun v s => .ok () (f v s) :=
  .bind blind_pop fun v => .pure () (hf v)

theorem blind_php : Blind pushP := by
  intro w n s s' h
  rw [pushP, pushP, pushedByInstruction_alike h.2]
  exact blind_push _ w n s s' h

theorem blind_callTo (ea : Addr) : Blind (callTo ea) :=
  .bind (.dep (g := fun s => s.pc - 1) (h := pushAddr) (fun _ _ _ => rfl) blind_pushAddr) fun _ => .pure () (blind_setPC ea)

theorem blind_storeTas (ea : Addr) : Blind (storeTas ea) :=
  .dep (g := fun s => (s.a &&& s.x, s.y)) (h := fun r s => busWrite ea (r.1 &&& baseHighPlusOne ea r.2) (s.setSP r.1))
    (fun _ _ _ => rfl) fun _ => .after (blind_write _ _) (blind_setSP _)

theorem mnemonicMeaning_isBlind (m : Mnemonic) : IsBlind (mnemonicMeaning m) := by
  cases m
  case lda => exact blind_loadA
  case ldx => exact blind_loadX
  case ldy => exact blind_loadY
  case lax => exact blind_loadAX
  case and => exact blind_andA
  case ora => exact blind_orA
  case eor => exact blind_eorA
  case xaa => exact fun v => .dep (g := fun s => (s.a ||| Config.xaaMagic) &&& s.x &&& v) (fun _ _ _ => rfl) blind_loadA
  case bit => exact fun v => blind_flagsOf (g := State.a) (fun _ _ _ => rfl) fun a => blindFlags_bit a v
  case cmp => exact blind_cmpA
  case cpx => exact fun v => blind_flagsOf (g := State.x) (fun _ _ _ => rfl) fun r => blindFlags_compare r v
  case cpy => exact fun v => blind_flagsOf (g := State.y) (fun _ _ _ => rfl) fun r => blindFlags_compare r v
  case adc => exact blind_aluA blindPair_addWithCarry
  case sbc => exact blind_aluA blindPair_subWithBorrow
  case anc => exact blind_aluA blindPair_anc
  case alr => exact blind_aluA blindPair_alr
  case arr => exact blind_aluA blindPair_arr
  case axs => exact blind_axs
  case las => exact blind_las
  case nop => exact fun _ => blind_id
  case slo => exact ⟨blindPair_asl, blind_orA⟩
  case rla => exact ⟨blindPair_rol, blind_andA⟩
  case sre => exact ⟨blindPair_lsr, blind_eorA⟩
  case rra => exact ⟨blindPair_ror, blind_aluA blindPair_addWithCarry⟩
  case dcp => exact ⟨blindPair_dec, blind_cmpA⟩
  case isc => exact ⟨blindPair_inc, blind_aluA blindPair_subWithBorrow⟩
  case asl => exact blindPair_asl
  case lsr => exact blindPair_lsr
  case rol => exact blindPair_rol
  case ror => exact blindPair_ror
  case inc => exact blindPair_inc
  case dec => exact blindPair_dec
  case sta | stx | sty | sax | ahx | shx | shy => exact fun _ _ _ _ => rfl
  case tax => exact .dep (g := State.a) (fun _ _ _ => rfl) blind_loadX
  case tay => exact .dep (g := State.a) (fun _ _ _ => rfl) blind_loadY
  case txa => exact .dep (g := State.x) (fun _ _ _ => rfl) blind_loadA
  case tya => exact .dep (g := State.y) (fun _ _ _ => rfl) blind_loadA
  case tsx => exact .dep (g := State.sp) (fun _ _ _ => rfl) blind_loadX
  case txs => exact .dep (g := State.x) (fun _ _ _ => rfl) blind_setSP
  case inx => exact .dep (g := fun s => s.x + 1) (fun _ _ _ => rfl) blind_loadX
  case iny => exact .dep (g := fun s => s.y + 1) (fun _ _ _ => rfl) blind_loadY
  case dex => exact .dep (g := fun s => s.x - 1) (fun _ _ _ => rfl) blind_loadX
  case dey => exact .dep (g := fun s => s.y - 1) (fun _ _ _ => rfl) blind_loadY
  case clc | cld | cli | clv | sec | sed | sei => exact blind_flags (blindFlags_put _ _)
  case kil => exact blind_setHalted true
  case brk => exact blind_interruptEntry _ _
  case rti => exact blind_interruptReturn
  case rts =>
    exact .bind blind_popAddr fun ret => .pure () (blind_setPC (ret + 1))
  case pha => exact .dep (g := State.a) (h := push) (fun _ _ _ => rfl) blind_push
  case php => exact blind_php
  case pla => exact blind_pull blind_loadA
  case plp => exact blind_pull fun v => blind_setP (statusOfPopped v)
  case jmp => exact fun ea => .pure () (blind_setPC ea)
  case jsr => exact blind_callTo
  case tas => exact blind_storeTas
  case bcc | bcs | beq | bmi | bne | bpl | bvc | bvs => trivial

theorem meaning_isBlind (i : Instr) : IsBlind (meaning i) := by
  unfold meaning
  split
  · exact fun v => .dep (g := fun s => (s.a ||| Config.laxMagic) &&& v) (fun _ _ _ => rfl) blind_loadAX
  · split
    · exact blind_id
    · exact mnemonicMeaning_isBlind _

/-! ## Every instruction is blind -/

theorem blind_combine {f : Byte → Byte → Byte × Byte} {g : Byte → State → State} (hf : ∀ v, BlindPair (f v))
    (hg : ∀ v, BlindUpdate (g v)) (ea : Addr) (v : Byte) :
    Blind fun s => (busWrite ea (f v s.p).1 (s.setP (f v s.p).2)).bind fun _ t => .ok () (g (f v s.p).1 t) := by
  intro w n s s' e
  obtain ⟨hbyte, hstatus⟩ := hf v _ _ _ e.2
  dsimp only
  rw [hbyte]
  exact (blind_write ea _ w n _ _ ⟨by rw [e.1]; rfl, hstatus⟩).bind (fun _ => Blind.pure () (hg _) w n)

theorem blind_branch (m : Mnemonic) (o : Int) : BlindMeaning (branch m o) := by
  refine blind_plain fun w n s s' h => ?_
  rw [branchCond_alike h.2]
  have hbody (taken : Bool) : BlindUpdate (branchBody taken o) := by
    cases taken
    · exact blind_id
    · exact .dep (g := State.pc)
        (h := fun pc s => (s.addCycles (1 + (pageCross pc (pc + sext16 o)).toNat)).setPC (pc + sext16 o)) (fun _ _ _ => rfl)
        fun pc => .comp (blind_setPC _) (blind_addCycles _)
  exact .ok () (hbody _ w n s s' h)

theorem blind_exec (i : Instr) : BlindMeaning (exec i) := by
  have hmeaning := meaning_isBlind i
  have hruns := runs_meaning i
  generalize meaning i = M at hmeaning hruns
  generalize exec i = e at hruns ⊢
  cases hruns with
  | registers f _ => exact blind_plain (.pure () hmeaning)
  | stack h => exact blind_plain hmeaning
  | immediate f _ _ _ => exact blind_plain (.pure () (hmeaning _))
  | read f _ => exact blind_addressed fun ea => .bind (blind_read ea) fun v => .pure () (hmeaning v)
  | store v _ _ =>
    exact blind_addressed fun ea => .dep (g := v ea) (h := fun b => busWrite ea b) (hmeaning ea) (blind_write ea)
  | accumulator f _ _ =>
    refine blind_plain (.pure () (f := fun s => (s.setP (f s.a s.p).2).setA (f s.a s.p).1) ?_)
    exact .dep (g := State.a) (h := fun a s => (s.setP (f a s.p).2).setA (f a s.p).1) (fun _ _ _ => rfl)
      fun a => blind_pair (hmeaning a)
  | modify f _ _ => exact blind_addressed fun ea => .bind (blind_read ea) fun v => blind_modify hmeaning ea v
  | combine f g _ _ =>
    obtain ⟨hf, hg⟩ := hmeaning
    exact blind_addressed fun ea => .bind (blind_read ea) fun v => blind_combine hf hg ea v
  | address h _ _ => exact blind_addressed hmeaning
  | branch o _ _ _ => exact blind_branch i.mnemonic o

/-! ## Every step is blind -/

theorem operandReads_alike {p q : Byte} {w : Bool} (h : StatusLike w p q) (e : Entry) : operandReads e q = operandReads e p := by
  unfold operandReads
  rw [branchCond_alike h]

theorem blind_readAt (k : Addr) : Blind fun s => busRead (s.pc + k) s :=
  .dep (g := fun s => s.pc + k) (h := busRead) (fun _ _ _ => rfl) blind_read

theorem blind_fetchOperands (op : Byte) : Blind (fetchOperands op) := by
  intro w n s s' h
  unfold fetchOperands
  rw [operandReads_alike h.2]
  split
  · exact .ok _ h
  · exact Blind.bind (blind_readAt 1) (fun _ => .pure _ blind_id) w n s s' h
  · exact Blind.bind (blind_readAt 1) (fun _ => .bind (blind_readAt 2) fun _ => .pure _ blind_id) w n s s' h

theorem blind_fetch : Blind fetch :=
  .bind (.dep (g := State.pc) (h := busRead) (fun _ _ _ => rfl) blind_read) blind_fetchOperands

theorem blind_serviceInterrupt (vector : Addr) : Blind (serviceInterrupt vector) :=
  .bind (blind_interruptEntry vector false) fun _ => .pure () (.comp (blind_setIntr .none) (blind_addCycles serviceCycles))

theorem blind_runInstruction : BlindMeaning runInstruction := by
  intro w n s s' h
  have hfetch := blind_fetch w n s s' h
  unfold runInstruction
  generalize fetch s = r, fetch s' = r' at hfetch
  cases hfetch with
  | ok i h => exact blind_exec i w n _ _ h
  | fault r => exact .fault r

theorem nextEvent_alike {w : Bool} {n : Nat} {s' : State} (h : Alike w n s s') : nextEvent s' = nextEvent s := by
  obtain ⟨hstate, hstatus⟩ := h
  have hhalted : s'.halted = s.halted := by rw [hstate]
  have hintr : s'.intr = s.intr := by rw [hstate]
  rw [nextEvent, nextEvent, hhalted, hintr, hstatus.get (g := .i) (by decide)]

theorem blind_step : BlindMeaning step := by
  intro w n s s' h
  rw [step, step, nextEvent_alike h]
  cases nextEvent s with
  | locked => exact .fault .halted
  | nmi => exact (blind_serviceInterrupt nmiVector).toResult w n s s' h
  | irq => exact (blind_serviceInterrupt irqVector).toResult w n s s' h
  | instruction => exact blind_runInstruction w n s s' h

/-! ## The obligations -/

theorem step_alike_next {w : Bool} {n : Nat} {s' : State} (h : Alike w n s s') (hstep : step s = .next t) :
    ∃ t', step s' = .next t' ∧ Alike w n t t' := by
  have hresult := blind_step w n s s' h
  rw [hstep] at hresult
  generalize step s' = r at hresult
  cases hresult with
  | next ht => exact ⟨_, rfl, ht⟩

theorem step_alike_fault {w : Bool} {n : Nat} {s' : State} {r : Fault} (h : Alike w n s s') (hstep : step s = .fault r) :
    step s' = .fault r := by
  have hresult := blind_step w n s s' h
  rw [hstep] at hresult
  generalize step s' = r' at hresult
  cases hresult with
  | fault => rfl

theorem alike_addCycles (s : State) (n : Nat) : Alike false n s (s.addCycles n) := ⟨rfl, fun _ => .inr rfl⟩

theorem eq_addCycles_of_alike {n : Nat} {t' : State} (h : Alike false n t t') : t' = t.addCycles n := by
  obtain ⟨hstate, hstatus⟩ := h
  have hp : t'.p = t.p := status_ext fun f => by simpa using hstatus f
  rw [hp] at hstate
  exact hstate

theorem alike_setBreak (s : State) (b : Bool) : Alike true 0 s (s.setP (putFlag .b b s.p)) := by
  refine ⟨rfl, fun g => ?_⟩
  rcases eq_or_ne g .b with hg | hg
  · exact .inl ⟨rfl, hg⟩
  · exact .inr ((getFlag_putFlag .b g b s.p).trans (if_neg hg))

theorem eq_setBreak_of_alike {t' : State} (h : Alike true 0 t t') : t' = t.setP (putFlag .b (getFlag .b t'.p) t.p) := by
  obtain ⟨hstate, hstatus⟩ := h
  have hp : t'.p = putFlag .b (getFlag .b t'.p) t.p := status_ext fun f => by
    rw [getFlag_putFlag]
    split
    · subst f
      rfl
    · exact hstatus.get ‹_›
  rw [← hp]
  exact hstate

/-- Settles O52. -/
theorem stepIgnoresCycles : Obligations.StepIgnoresCycles := by
  refine fun s n => ⟨fun t h => ?_, fun _ h => step_alike_fault (alike_addCycles s n) h⟩
  obtain ⟨t', hstep, ht⟩ := step_alike_next (alike_addCycles s n) h
  exact eq_addCycles_of_alike ht ▸ hstep

/-- Settles O53. -/
theorem breakFlagIsInert : Obligations.BreakFlagIsInert := by
  refine fun s b => ⟨fun t h => ?_, fun _ h => step_alike_fault (alike_setBreak s b) h⟩
  obtain ⟨t', hstep, ht⟩ := step_alike_next (alike_setBreak s b) h
  exact ⟨getFlag .b t'.p, hstep.trans (congrArg _ (eq_setBreak_of_alike ht))⟩

end Sys2Proof.Proofs.Noninterference
end

section
/-! PROOF. The obligations about PC and the cycle counter of every instruction (40_step_and_addressing.md R142, R166, R167). -/

namespace Sys2Proof.Proofs.Clock
open Sys2Proof.Machine Sys2Proof.Proofs.Meanings Sys2Proof.Proofs.Results Sys2Proof.Proofs.Fetch

variable {i : Instr} {s t u : State} {jumps : Prop} {a ea : Addr} {v : Byte}

/-! ## What leaves PC and the cycle counter alone -/

/-- The cycle counter is as before, and so is PC, unless the instruction jumps. -/
def KeepsClock (jumps : Prop) (s t : State) : Prop := t.cycles = s.cycles ∧ (¬ jumps → t.pc = s.pc)

theorem KeepsClock.trans (h : KeepsClock jumps s t) (h' : KeepsClock jumps t u) : KeepsClock jumps s u :=
  ⟨h'.1.trans h.1, fun hj => (h'.2 hj).trans (h.2 hj)⟩

theorem keepsClock_of_eq (hc : t.cycles = s.cycles) (hpc : t.pc = s.pc) : KeepsClock jumps s t :=
  ⟨hc, fun _ => hpc⟩

theorem keepsClock_of_busRead (h : busRead a s = .ok v t) : KeepsClock jumps s t := by
  rw [(busRead_keeps h).1]
  exact keepsClock_of_eq rfl rfl

theorem keepsClock_of_busWrite (h : busWrite a v s = .ok () t) : KeepsClock jumps s t := by
  rw [(busWrite_keeps h).1]
  exact keepsClock_of_eq rfl rfl

theorem keepsClock_of_resolve {m : MemOperand} {r : Addr × Bool} (h : resolve m s = .ok r t) : KeepsClock jumps s t := by
  rw [(readsTo_of_resolve h).1]
  exact keepsClock_of_eq rfl rfl

theorem keepsClock_of_push (h : push v s = .ok () t) : KeepsClock jumps s t := by
  obtain ⟨_, w, hwrite, h⟩ := Res.bind_eq_ok.1 h
  cases h
  exact (keepsClock_of_busWrite hwrite).trans (keepsClock_of_eq rfl rfl)

theorem keepsClock_of_pop (h : pop s = .ok v t) : KeepsClock jumps s t :=
  (keepsClock_of_eq (t := s.setSP (s.sp + 1)) rfl rfl).trans (keepsClock_of_busRead h)

theorem keepsClock_of_pushAddr (h : pushAddr a s = .ok () t) : KeepsClock jumps s t := by
  obtain ⟨_, w, hhi, hlo⟩ := Res.bind_eq_ok.1 h
  exact (keepsClock_of_push hhi).trans (keepsClock_of_push hlo)

theorem keepsClock_of_popAddr (h : popAddr s = .ok a t) : KeepsClock jumps s t := by
  obtain ⟨lo, w, hlo, h⟩ := Res.bind_eq_ok.1 h
  obtain ⟨hi, w', hhi, h⟩ := Res.bind_eq_ok.1 h
  cases h
  exact (keepsClock_of_pop hlo).trans (keepsClock_of_pop hhi)

theorem keepsClock_of_readWord {b : Addr} (h : readWord a s = .ok b t) : KeepsClock jumps s t := by
  obtain ⟨lo, w, hlo, h⟩ := Res.bind_eq_ok.1 h
  obtain ⟨hi, w', hhi, h⟩ := Res.bind_eq_ok.1 h
  cases h
  exact (keepsClock_of_busRead hlo).trans (keepsClock_of_busRead hhi)

/-- Where PC may change, only the cycle counter counts. -/
theorem keepsClock_of_jump (hj : jumps) (h : t.cycles = s.cycles) : KeepsClock jumps s t := ⟨h, fun hn => absurd hj hn⟩

theorem keepsClock_of_interruptEntry {vector : Addr} {b : Bool} (hj : jumps) (h : interruptEntry vector b s = .ok () t) :
    KeepsClock jumps s t := by
  obtain ⟨_, w, hpc, h⟩ := Res.bind_eq_ok.1 h
  obtain ⟨_, w', hp, h⟩ := Res.bind_eq_ok.1 h
  obtain ⟨_, w'', hvector, h⟩ := Res.bind_eq_ok.1 h
  cases h
  have hmasked : KeepsClock jumps w' (w'.setP (putFlag .i true w'.p)) := keepsClock_of_eq rfl rfl
  exact (keepsClock_of_pushAddr hpc).trans ((keepsClock_of_push hp).trans
    (hmasked.trans ((keepsClock_of_readWord hvector).trans (keepsClock_of_jump hj rfl))))

theorem keepsClock_of_interruptReturn (hj : jumps) (h : interruptReturn s = .ok () t) : KeepsClock jumps s t := by
  obtain ⟨p, w, hp, h⟩ := Res.bind_eq_ok.1 h
  obtain ⟨_, w', hpc, h⟩ := Res.bind_eq_ok.1 h
  cases h
  have hstatus : KeepsClock jumps w (w.setP (statusOfPopped p)) := keepsClock_of_eq rfl rfl
  exact (keepsClock_of_pop hp).trans (hstatus.trans ((keepsClock_of_popAddr hpc).trans (keepsClock_of_jump hj rfl)))

/-! ## What a meaning leaves alone -/

/-- The mnemonics that set PC. -/
def Jumps (m : Mnemonic) : Prop := m ∈ [Mnemonic.jmp, .jsr, .rts, .rti, .brk]

/-- What a meaning does, apart from its form, leaves the cycle counter alone, and PC unless it jumps. -/
def MeaningKeepsClock (jumps : Prop) : Meaning → Prop
  | .registers f => ∀ s, KeepsClock jumps s (f s)
  | .stack h => ∀ s t, h s = .ok () t → KeepsClock jumps s t
  | .read f | .combine _ f => ∀ v s, KeepsClock jumps s (f v s)
  | .address h => ∀ ea s t, h ea s = .ok () t → KeepsClock jumps s t
  | .store _ | .modify _ | .branch => True

theorem mnemonicMeaning_keepsClock (m : Mnemonic) : MeaningKeepsClock (Jumps m) (mnemonicMeaning m) := by
  cases m
  case brk => exact fun _ _ h => keepsClock_of_interruptEntry (by simp [Jumps]) h
  case rti => exact fun _ _ h => keepsClock_of_interruptReturn (by simp [Jumps]) h
  case rts =>
    intro s t h
    obtain ⟨ret, u, hpop, h⟩ := Res.bind_eq_ok.1 h
    cases h
    exact (keepsClock_of_popAddr hpop).trans (keepsClock_of_jump (by simp [Jumps]) rfl)
  case pha | php => exact fun _ _ h => keepsClock_of_push h
  case pla | plp =>
    intro s t h
    obtain ⟨v, u, hpop, h⟩ := Res.bind_eq_ok.1 h
    cases h
    exact (keepsClock_of_pop hpop).trans (keepsClock_of_eq rfl rfl)
  case jmp =>
    intro ea s t h
    cases h
    exact keepsClock_of_jump (by simp [Jumps]) rfl
  case jsr =>
    intro ea s t h
    obtain ⟨_, u, hpush, h⟩ := Res.bind_eq_ok.1 h
    cases h
    exact (keepsClock_of_pushAddr hpush).trans (keepsClock_of_jump (by simp [Jumps]) rfl)
  case tas =>
    exact fun ea s t h => (keepsClock_of_eq (t := s.setSP (s.a &&& s.x)) rfl rfl).trans (keepsClock_of_busWrite h)
  case adc | alr | anc | and | arr | axs | bit | cmp | cpx | cpy | dcp | eor | isc | las | lax | lda | ldx | ldy | nop | ora |
      rla | rra | sbc | slo | sre | xaa =>
    exact fun _ _ => keepsClock_of_eq rfl rfl
  case clc | cld | cli | clv | dex | dey | inx | iny | kil | sec | sed | sei | tax | tay | tsx | txa | txs | tya =>
    exact fun _ => keepsClock_of_eq rfl rfl
  all_goals trivial

theorem meaning_keepsClock (i : Instr) : MeaningKeepsClock (Jumps i.mnemonic) (meaning i) := by
  unfold meaning
  split
  · exact fun _ _ => keepsClock_of_eq rfl rfl
  · split
    · exact fun _ => keepsClock_of_eq rfl rfl
    · exact mnemonicMeaning_keepsClock _

/-! ## The forms of an instruction -/

theorem memOperand_of_stack {h : State → Res Unit} (hM : mnemonicMeaning i.mnemonic = .stack h) : i.memOperand = none := by
  cases i
  case brk | php | plp | rti | pha | rts | pla => rfl
  all_goals cases hM

theorem memOperand_none_of_stack {h : State → Res Unit} (hM : meaning i = .stack h) : i.memOperand = none := by
  unfold meaning at hM
  split at hM
  · cases hM
  · split at hM
    · cases hM
    · exact memOperand_of_stack hM

/-- The clock of an instruction without an effective address. -/
def PlainClock (i : Instr) (s t : State) : Prop :=
  t.cycles = s.cycles + i.entry.base ∧ (¬ Jumps i.mnemonic → t.pc = s.pc + BitVec.ofNat 16 i.entry.length)

/-- The clock of an instruction with one. -/
def AddressedClock (i : Instr) (m : MemOperand) (s t : State) : Prop :=
  ∃ ea xa u, resolve m s = .ok (ea, xa) u ∧ t.cycles = s.cycles + i.entry.base + (xa && i.entry.xb).toNat ∧
    (¬ Jumps i.mnemonic → t.pc = s.pc + BitVec.ofNat 16 i.entry.length)

theorem plainClock_of_plain {h : State → Res Unit} (hh : ∀ s t, h s = .ok () t → KeepsClock (Jumps i.mnemonic) s t)
    (he : plain i.entry.base i.entry.length h s = .next t) : PlainClock i s t :=
  hh _ _ (Res.toResult_eq_next.1 he)

theorem addressedClock_of_addressed {h : Addr → State → Res Unit} {m : MemOperand} (hm : i.memOperand = some m)
    (hh : ∀ ea s t, h ea s = .ok () t → KeepsClock (Jumps i.mnemonic) s t)
    (he : addressed i.entry.base i.entry.xb m h s = .next t) : AddressedClock i m s t := by
  obtain ⟨⟨ea, xa⟩, u, hresolve, he⟩ := Res.bind_eq_ok.1 (Res.toResult_eq_next.1 he)
  obtain ⟨_, w, hbody, he⟩ := Res.bind_eq_ok.1 he
  cases he
  obtain ⟨hcycles, hpc⟩ := hh _ _ _ hbody
  obtain ⟨hcycles', hpc'⟩ := keepsClock_of_resolve (jumps := False) hresolve
  rw [length_of_memOperand hm] at hpc hcycles
  refine ⟨ea, xa, u, hresolve, ?cycles, fun hj => ?pc⟩
  case cycles => exact congrArg (· + (xa && i.entry.xb).toNat) (hcycles.trans (congrArg (· + i.entry.base) hcycles'))
  case pc => exact (hpc hj).trans (congrArg (· + BitVec.ofNat 16 i.entry.length) (hpc' id))

/-- Every instruction that is no branch has the clock of its form. -/
theorem clock_of_exec (h : exec i s = .next t) (hrel : i.entry.mode ≠ .rel) :
    (i.memOperand = none ∧ PlainClock i s t) ∨ ∃ m, i.memOperand = some m ∧ AddressedClock i m s t := by
  have hkeeps := meaning_keepsClock i
  have hruns := runs_meaning i
  have hstack : ∀ {h}, meaning i = .stack h → i.memOperand = none := memOperand_none_of_stack
  have hnone (hne : ∀ m, i.memOperand ≠ some m) : i.memOperand = none := by
    cases hm : i.memOperand with
    | none => rfl
    | some m => exact absurd hm (hne m)
  generalize meaning i = M at hkeeps hruns hstack
  generalize exec i = e at hruns h
  cases hruns with
  | registers f hlen =>
    refine .inl ⟨hnone fun m hm => ?_, ?_⟩
    · rw [← length_of_memOperand hm] at hlen
      cases m <;> cases hlen
    · rw [implied, ← hlen] at h
      exact plainClock_of_plain (fun s t h => by cases h; exact hkeeps s) h
  | stack body => exact .inl ⟨hstack rfl, plainClock_of_plain hkeeps h⟩
  | @immediate f _ d hmode hbase hbytes =>
    have hlen : i.entry.length = 2 := by rw [← Encoding.length_encode, hbytes]; rfl
    refine .inl ⟨hnone fun m hm => (mode_ne_of_memOperand hm).2.1 hmode, ?_⟩
    have he : plain i.entry.base i.entry.length (fun s => .ok () (f d s)) s = .next t := by rw [hbase, hlen]; exact h
    exact plainClock_of_plain (fun s t h => by cases h; exact hkeeps _ s) he
  | read f hm =>
    refine .inr ⟨_, hm, addressedClock_of_addressed hm (fun ea s t h => ?_) h⟩
    obtain ⟨v, u, hread, h⟩ := Res.bind_eq_ok.1 h
    cases h
    exact (keepsClock_of_busRead hread).trans (hkeeps v u)
  | store v hm hxb =>
    rw [storeMem, ← hxb] at h
    exact .inr ⟨_, hm, addressedClock_of_addressed hm (fun _ _ _ h => keepsClock_of_busWrite h) h⟩
  | accumulator f hmode hbase =>
    have hlen : i.entry.length = 1 := by rw [length_of_mode (by simp [hmode]), hmode]; rfl
    refine .inl ⟨hnone fun m hm => (mode_ne_of_memOperand hm).1 hmode, ?_⟩
    rw [rmwAcc, implied, ← hlen, ← hbase] at h
    exact plainClock_of_plain (fun s t h => by cases h; exact keepsClock_of_eq rfl rfl) h
  | modify f hm hxb =>
    rw [rmwMem, ← hxb] at h
    refine .inr ⟨_, hm, addressedClock_of_addressed hm (fun ea s t h => ?_) h⟩
    obtain ⟨v, u, hread, h⟩ := Res.bind_eq_ok.1 h
    have hstatus : KeepsClock (Jumps i.mnemonic) u (u.setP (f v u.p).2) := keepsClock_of_eq rfl rfl
    exact (keepsClock_of_busRead hread).trans (hstatus.trans (keepsClock_of_busWrite h))
  | combine f g hm hxb =>
    rw [rmwThen, ← hxb] at h
    refine .inr ⟨_, hm, addressedClock_of_addressed hm (fun ea s t h => ?_) h⟩
    obtain ⟨v, u, hread, h⟩ := Res.bind_eq_ok.1 h
    obtain ⟨_, w, hwrite, h⟩ := Res.bind_eq_ok.1 h
    cases h
    have hstatus : KeepsClock (Jumps i.mnemonic) u (u.setP (f v u.p).2) := keepsClock_of_eq rfl rfl
    exact (keepsClock_of_busRead hread).trans
      (hstatus.trans ((keepsClock_of_busWrite hwrite).trans (hkeeps _ _)))
  | address body hm hxb =>
    rw [← hxb] at h
    exact .inr ⟨_, hm, addressedClock_of_addressed hm hkeeps h⟩
  | branch o hmode => exact absurd hmode hrel

/-- Settles O56. -/
theorem pcAndCycles : Obligations.PcAndCycles := by
  intro i s t h hrel
  rcases clock_of_exec h hrel with ⟨hnone, hcycles, hpc⟩ | ⟨m, hm, ea, xa, u, hresolve, hcycles, hpc⟩
  · refine ⟨hpc, fun _ => hcycles, fun ea xa u ⟨m, hm, _⟩ => ?_⟩
    rw [hnone] at hm
    cases hm
  · refine ⟨hpc, fun hnone => ?_, fun ea' xa' u' ⟨m', hm', hresolve'⟩ => ?_⟩
    · rw [hnone] at hm
      cases hm
    · obtain rfl : m = m' := Option.some.inj (hm.symm.trans hm')
      rw [hresolve] at hresolve'
      cases hresolve'
      exact hcycles

/-! ## Page crosses -/

/-- The mnemonics whose every row with a page cross is sensitive to it. -/
def sensitiveMnemonics : List Mnemonic := [.lda, .ldx, .ldy, .adc, .sbc, .and, .ora, .eor, .cmp, .lax, .las]

theorem xb_of_mnemonic (h : i.mnemonic ≠ .nop) : i.entry.xb = decide (i.mnemonic ∈ sensitiveMnemonics) := by
  cases i
  case nop | nopImp | nopImm | nopZp | nopZpX | nopAbs | nopAbsX => exact absurd rfl h
  all_goals rfl

theorem xb_of_nop (h : i.mnemonic = .nop) : i.entry.xb = true ↔ i ≠ .nop := by
  cases i
  case nop => exact iff_of_false Bool.false_ne_true (not_not_intro rfl)
  case nopImp | nopImm | nopZp | nopZpX | nopAbs | nopAbsX => exact iff_of_true rfl nofun
  all_goals cases h

/-- Only an indexed address outside the zero page can leave its page. -/
theorem operandMode_of_pageCross {m : MemOperand} (h : resolve m s = .ok (ea, true) t) :
    operandMode m ∈ [Mode.abx, .aby, .izy] := by
  cases m
  case abx | aby | izy => simp [operandMode]
  case ind | izx =>
    obtain ⟨p, u, hptr, h⟩ := Res.bind_eq_ok.1 h
    cases h
  all_goals cases h

/-- Settles O57. -/
theorem pageCrossSources : Obligations.PageCrossSources := by
  refine ⟨fun i _ => ?sensitive, fun i s t ea ⟨m, hm, hresolve⟩ => ?sources⟩
  case sensitive =>
    by_cases hnop : i.mnemonic = .nop
    · simp [xb_of_nop hnop, hnop]
    · simp [xb_of_mnemonic hnop, hnop, sensitiveMnemonics]
  case sources =>
    rw [mode_of_memOperand hm]
    exact operandMode_of_pageCross hresolve

end Sys2Proof.Proofs.Clock
end

section
/-! PROOF. The obligations of 70_reset_and_hazards.md: reset, construction and the host's operations (R410 to R426). -/

namespace Sys2Proof.Proofs.Lifecycle
open Sys2Proof.Machine Sys2Proof.Proofs.Results Sys2Proof.Proofs.Control Sys2Proof.Proofs.Bus Sys2Proof.Proofs.WholeMachine

variable {s t : State} {w : ResetDraw}

/-! ## Reset -/

theorem getFlag_status (w : ResetDraw) {g : Flag} (hi : g ≠ .i) (hu : g ≠ .u) : getFlag g w.status = getFlag g w.flags := by
  rw [ResetDraw.status, getFlag_putFlag, getFlag_putFlag, if_neg hu, if_neg hi]

theorem getFlag_i_status (w : ResetDraw) : getFlag .i w.status = true := by
  rw [ResetDraw.status, getFlag_putFlag, getFlag_putFlag]
  rfl

theorem getFlag_u_status (w : ResetDraw) : getFlag .u w.status = true := by
  rw [ResetDraw.status, getFlag_putFlag]
  rfl

/-- Settles O46: the registers are set, and the vector is read from the bus as it was. -/
theorem resetLeaves : Obligations.ResetLeaves := by
  intro s t u draw lo hi hlo hhi
  have hreads : s.ReadsTo u := readsTo_two hlo hhi
  have htslots : t.slots = s.slots := by rw [(busRead_keeps hlo).1]; rfl
  have hlo' := busRead_ok_sameBus (t := s.resetRegisters draw) hlo rfl rfl
  have hhi' := busRead_ok_sameBus (t := (s.resetRegisters draw).setDevices t.devices) hhi htslots.symm rfl
  refine ⟨draw.status, ?_, getFlag_i_status draw, getFlag_u_status draw, fun g hg => ?_, hreads⟩
  · rw [State.cpuReset, resetVector, readWord_ok hlo' hhi', hreads.1]
    rfl
  · exact getFlag_status draw (fun h => by simp [h] at hg) (fun h => by simp [h] at hg)

theorem inv_of_reset (hs : s.memoryWf = true) (h : s.cpuReset w = .ok () t) : t.Inv := by
  obtain ⟨target, u, hread, h⟩ := Res.bind_eq_ok.1 h
  cases h
  have hstart : (s.resetRegisters w).Inv := ⟨getFlag_u_status w, hs⟩
  have hu : u.Inv := respected_inv.readWord hread hstart
  exact hu

/-- Settles O47. -/
theorem invariantAtReset : Obligations.InvariantAtReset := ⟨by decide, reset_memoryWf⟩

/-! ## The devices -/

theorem memoryWf_iff : s.memoryWf = true ↔ ∀ dev, some dev ∈ s.devices → dev.wf = true := by
  rw [State.memoryWf, List.all_eq_true]
  refine ⟨fun h dev hdev => h _ hdev, fun h o ho => ?_⟩
  cases o with
  | none => rfl
  | some dev => exact h dev ho

theorem memoryWf_set {d : Nat} {o : Option Device} (hs : s.memoryWf = true) (ho : ∀ dev, o = some dev → dev.wf = true) :
    (s.setDevices (s.devices.set d o)).memoryWf = true := by
  refine memoryWf_iff.2 fun dev hdev => ?_
  rcases List.mem_or_eq_of_mem_set hdev with hdev | hdev
  · exact memoryWf_iff.1 hs dev hdev
  · exact ho dev hdev.symm

theorem wf_write {kind : MemKind} {size a : Nat} {cells : Memory} (h : (Device.memory kind size cells).wf = true) (ha : a < size)
    (v : Byte) : (Device.memory kind size (Memory.write cells a v)).wf = true := by
  simp only [Device.wf, Bool.and_eq_true, List.all_eq_true, decide_eq_true_eq] at h ⊢
  obtain ⟨hcells, hbound⟩ := h
  exact ⟨Memory.write_wf hcells a v, Memory.write_bound hbound ha v⟩

theorem wf_resetAll {dev : Device} (h : dev.wf = true) : dev.resetAll.wf = true := by
  rcases dev with ⟨_ | _ | _, size, cells⟩ | ⟨id, writable, inner⟩
  case memory.tracked => rfl
  all_goals exact h

/-! ## The host's operations -/

theorem inv_of_devices {ds : List (Option Device)} (hs : s.Inv) (h : (s.setDevices ds).memoryWf = true) :
    (s.setDevices ds).Inv := ⟨hs.1, h⟩

theorem inv_map {d : Nat} {first last : Addr} (hs : s.Inv) : (s.map d first last).Inv := by
  unfold State.map
  exact hs

theorem inv_addDevice {dev : Device} (hs : s.Inv) (hdev : dev.wf = true) : (s.addDevice dev).Inv := by
  refine inv_of_devices hs (memoryWf_iff.2 fun e he => ?_)
  rcases List.mem_append.1 he with he | he
  · exact memoryWf_iff.1 hs.2 e he
  · cases List.mem_singleton.1 he
    exact hdev

theorem inv_release {d : Nat} (hs : s.Inv) : (s.release d).Inv := inv_of_devices hs (memoryWf_set hs.2 nofun)

theorem inv_resetAllDevices (hs : s.Inv) : s.resetAllDevices.Inv := by
  refine inv_of_devices hs (memoryWf_iff.2 fun dev hdev => ?_)
  obtain ⟨o, ho, hdev⟩ := List.mem_map.1 hdev
  obtain ⟨e, rfl, rfl⟩ := Option.map_eq_some_iff.1 hdev
  exact wf_resetAll (memoryWf_iff.1 hs.2 e ho)

theorem inv_loadByte {d a : Nat} {v : Byte} (hs : s.Inv) : (s.loadByte d a v).Inv := by
  unfold State.loadByte
  split
  next kind size cells hd =>
    split
    · have hwf := memoryWf_iff.1 hs.2 _ (List.mem_of_getElem? hd)
      exact inv_of_devices hs (memoryWf_set hs.2 fun dev h => Option.some.inj h ▸ wf_write hwf ‹_› v)
    · exact hs
  · exact hs

theorem inv_load {d a : Nat} {bytes : List Byte} (hs : s.Inv) : (s.load d a bytes).Inv := by
  induction bytes generalizing a s with
  | nil => exact hs
  | cons v bytes ih => exact ih (inv_loadByte hs)

theorem inv_raiseIrq (hs : s.Inv) : s.raiseIrq.Inv := by
  unfold State.raiseIrq
  split <;> exact hs

theorem inv_hostStep {h k : Session} (hs : h.state.Inv) (e : hostStep h = .next k) : k.state.Inv := by
  cases h with
  | building s => cases e
  | running s =>
    rw [hostStep] at e
    split at e
    · cases e
      exact hs
    · obtain ⟨t, hstep, rfl⟩ := asRunning_eq_next.1 e
      exact inv_of_step hs hstep

/-- Settles O49, by the host's operation. -/
theorem invariantKeptByHost : Obligations.InvariantKeptByHost := by
  refine ⟨fun w => ⟨getFlag_u_status w, rfl⟩, fun h k op hs hdev e => ?_⟩
  have hupdate (f : State → State) (hf : (f h.state).Inv) (e : (.next (h.update f) : SessionResult) = .next k) : k.state.Inv := by
    cases e
    rwa [Session.state_update]
  cases op with
  | step => exact inv_hostStep hs e
  | reset w =>
    obtain ⟨t, hreset, rfl⟩ := asRunning_eq_next.1 e
    exact inv_of_reset hs.2 (Res.toResult_eq_next.1 hreset)
  | raiseIrq => exact hupdate State.raiseIrq (inv_raiseIrq hs) e
  | raiseNmi => exact hupdate State.raiseNmi hs e
  | map d first last => exact hupdate (State.map d first last) (inv_map hs) e
  | addDevice dev => exact hupdate (State.addDevice dev) (inv_addDevice hs (hdev dev rfl)) e
  | load d a bytes => exact hupdate (State.load d a bytes) (inv_load hs) e
  | release d => exact hupdate (State.release d) (inv_release hs) e
  | resetAll => exact hupdate State.resetAllDevices (inv_resetAllDevices hs) e
  | setPC a => exact hupdate (State.setPC a) hs e

/-! ## Construction -/

/-- A reset of a core with an empty bus leaves PC at the word that empty slots read as (R73). -/
theorem cpuReset_constructed (w : ResetDraw) : (State.constructed w).cpuReset w = .ok () (State.constructed w) := by
  have hread (a : Addr) : busRead a (State.constructed w) = .ok 0 (State.constructed w) :=
    (access_of_empty (slotDevice_eq_none (.inl (constructed_slot w _))) 0).1
  rw [State.cpuReset, show (State.constructed w).resetRegisters w = State.constructed w from rfl,
    readWord_ok (hread resetVector) (hread _)]
  rfl

/-- A run that gets past a step while the platform is being built has reset the core before. -/
theorem reset_mem_of_runHost {before after : List HostOp} {k : Session}
    (h : runHost (before ++ .step :: after) (.building s) = .next k) : ∃ w, HostOp.reset w ∈ before := by
  induction before generalizing s with
  | nil =>
    obtain ⟨m, hstep, -⟩ := runHost_cons h
    cases hstep
  | cons op before ih =>
    obtain ⟨m, hop, hrest⟩ := runHost_cons h
    rcases applyHost_building hop with ⟨w, t, rfl, -, -⟩ | ⟨-, t, rfl⟩
    · exact ⟨w, List.mem_cons_self⟩
    · obtain ⟨w, hw⟩ := ih hrest
      exact ⟨w, List.mem_cons_of_mem _ hw⟩

/-- Settles O60: an empty bus is reset to itself, and a step before the first reset stops the run. -/
theorem noStepBeforeFirstReset : Obligations.NoStepBeforeFirstReset := by
  refine ⟨fun w => ⟨State.constructed w, rfl, constructed_slot w, rfl, rfl, getFlag_i_status w, rfl, rfl,
    cpuReset_constructed w⟩, fun _ => rfl, fun s t w h => ?_, fun _ _ _ _ h => reset_mem_of_runHost h⟩
  show asRunning (s.cpuReset w).toResult = _
  rw [h]
  rfl

end Sys2Proof.Proofs.Lifecycle
end
